-- ==== Sys2Proof/Word.lean ====
section
/-! DEFINITION. The word types of the Philvo (registers of 32 bits, R9; bytes of memories and queues). -/

namespace Sys2Proof

/-- A register value (R9: every register is 32 bits wide). -/
abbrev Word := BitVec 32

/-- One byte of a memory, a queue or a packet. -/
abbrev Byte := BitVec 8

end Sys2Proof
end

