-- ==== Sys2Proof/Syntax.lean ====
section
/-! DEFINITION. The commands of the Philvo: one constructor of `Instr` for each row of the table of operations and events.
An operand is what the outside world, a physical effect or a named outside standard supplies (an instant in ns of local
time, a received block, a reading of a sensor, the bytes of an H.265 slice); everything else a step needs stands in the
state. A row that is a microword acts on the list that the sequencer is running (R197). -/

namespace Sys2Proof

/-- The three register interfaces, each with its own holding registers (R11). -/
inductive Iface | pcie | mspi | seq
  deriving DecidableEq, Repr

/-- A general register G0 to G15 of a step list (R202). -/
abbrev Reg := Fin 16

/-- The branch conditions of R203; the reserved codes 11 to 15 are the row ILLEGAL. -/
inductive Cond | always | z | nz | n | nn | c | nc | t | nt | fail | nfail
  deriving DecidableEq, Repr

/-- What an ECC check finds in a protected word (R218, R272). -/
inductive Ecc | good | single | double
  deriving DecidableEq, Repr

/-- Where a tick edge comes from: the TICK_IN pin or a picture start of a Landing group's sensor (R17). -/
inductive TickEdge | tickIn (rising : Bool) | sensor (g : Nat)
  deriving DecidableEq, Repr

/-- A link whose lanes train under R44: a Landing group or the receive side of a Crossing group. -/
inductive Link | landing (g : Nat) | crossing (g : Nat)
  deriving DecidableEq, Repr

/-- One start step (R413). -/
inductive StartStep
  | volt (mv : Nat) | pll (n vco : Nat) | clksel (dom src : Nat) | power (dom st : Nat) | train (pkgs : Nat) | wait (us : Nat)
  deriving DecidableEq, Repr

/-- What the dies and channels answer to a TRAIN step (R415, R416): each channel trained, each die agreeing, each repair
candidate repaired, in channel order and in the order of the candidates. -/
structure TrainEnv where
  trained : List Bool
  diesOk : Bool
  repaired : List Bool
  deriving DecidableEq, Repr

/-- What the board answers to the start steps, in order: each VOLT reached, each PLL locked, the answers of TRAIN. -/
structure StartEnv where
  volts : List Bool
  plls : List Bool
  train : TrainEnv
  deriving DecidableEq, Repr

/-- What boot meets outside the device: the flash size in Mbit (SFDP), the start answers for each attempt in the order
tried, whether the golden copy reads back equal in each attempt, and the time from the rising edge of RESET_N in us. -/
structure BootEnv where
  flashMbit : Nat
  starts : List StartEnv
  golden : List Bool
  us : Nat
  deriving DecidableEq, Repr

/-- A repair entry (R409). -/
structure RepairEntry where
  kind : Nat
  tkind : Nat
  index : Nat
  data : Word
  deriving DecidableEq, Repr

/-- A 66-bit lane block on one physical lane (R47): its sync header, its payload and the 58 payload bits that came before it on
the lane (R48), bit 57 the latest, all as they are on the wire. -/
structure LaneBlock where
  hdr : BitVec 2
  pay : BitVec 64
  prev : BitVec 58
  deriving DecidableEq, Repr

/-- The DESKEW block received on one physical lane at the expected position (R50, R51): its fields, and its arrival in lane
blocks after the earliest lane's. -/
structure DeskewMark where
  lane : Nat
  slot : Nat
  w : Nat
  par : Bool
  seq : Nat
  late : Nat
  deriving DecidableEq, Repr

/-- What one strand's H.265 coding of a CTU row gives (R155, R162 to R164): the NAL units that stand before the slice (access
unit delimiter, parameter sets, prefix SEI), the slice, and the suffix SEI units after the picture's last slice. Under PKG = 0
each unit has its start code; for a slice of the whole picture, `slice` is the row's part of it. Further the context-coded and
the bypass bins of each CTU, the samples of reference pictures that it needs (CTU, order count of the reference, luma column and
row), and the reconstruction by plane. -/
structure SliceOut where
  pre : List (List Byte)
  slice : List Byte
  post : List (List Byte)
  bins : List (Nat × Nat)
  needs : List (Nat × Nat × Int × Int)
  recon : List (List (List Nat))
  deriving DecidableEq, Repr

/-- What ITU-T H.265 parsing finds of one NAL unit of an input packet (R173, R179): whether it begins a new access unit, whether it is a
slice segment, of an IRAP picture, and of a RASL picture that is not to be decoded. -/
structure NalInfo where
  starts : Bool
  slice : Bool
  irap : Bool
  skip : Bool
  deriving DecidableEq, Repr

/-- What ITU-T H.265 decoding finds of an access unit (R138, R180 to R184): parameter sets usable; the profile that general_profile_idc
names, by its code in COD_C_CTL.PROFILE, and those that a compatibility flag names, each with whether the bitstream meets its
constraints; the SPS's luma size; the CTUs that each correctly decoded slice segment covers; IRAP; the first picture of a coded
video sequence; sub-layer non-reference type; type 0 I, 1 P, 2 B and mean QP; the picture order count; the first entry of
RefPicList0 of the first correctly decoded P or B slice; the Curr reference sets; the pictures that stay in the decoded picture
buffer; the cropped size and its offset; chroma format, depths; CTU size, columns and count; the decoded planes, cropped; the
time address; a gap of picture order counts; the pictures now output, in order. -/
structure DecEnv where
  usable : Bool
  profile : Option Nat
  compat : List (Nat × Bool)
  lw : Nat
  lh : Nat
  segs : List (List Nat)
  irap : Bool
  start : Bool
  nonRef : Bool
  type : Nat
  qp : Nat
  poc : Int
  ref0 : Option Int
  curr : List Int
  keep : List Int
  w : Nat
  h : Nat
  x0 : Nat
  y0 : Nat
  chroma : Nat
  depth : Nat
  cdepth : Nat
  ctb : Nat
  cols : Nat
  total : Nat
  planes : List (List (List Nat))
  tc : Option Word
  gap : Bool
  bump : List Int
  deriving DecidableEq, Repr

/-- Who takes a queue's notice (R229): the consumer of its kind, or the host by a read of QF_Q_NOTICE at 0x6C, with
whether the word's parity is found wrong at the read. -/
inductive Taker | consumer | host (f : Iface)
  deriving DecidableEq, Repr

/-- A pool requester's ask (R255): for a named pool, or for a size in bytes. -/
structure AllocAsk where
  r : Nat
  bySize : Bool
  arg : Nat
  deriving DecidableEq, Repr

/-- A free by a pool requester (R260): `ecc` says that the read of the owner entry is uncorrectable. -/
structure FreeAsk where
  r : Nat
  handle : Word
  ecc : Bool
  deriving DecidableEq, Repr

/-- The fence that a producer attaches to an EOP (R242). -/
inductive PktFence | none | wr | host
  deriving DecidableEq, Repr

inductive DramOp | read (n : Nat) | write (bytes : List Byte)
  deriving DecidableEq, Repr

/-- A Ferry packet as received (R330, R332): bytes 1 to 6 of its PKT block's payload (SEQ [15:0], LEN [30:16], TYPE [33:32],
CH [39:34], FIRST [40], LAST [41], POISON [42]), its payload bytes, and the CRC-32C that came with it. -/
structure FerryPkt where
  hdr : BitVec 48
  payload : List Byte
  crc : BitVec 32
  deriving DecidableEq, Repr

/-- A TRAIN block received (R330). -/
structure TrainBlk where
  lanes : Nat
  ready : Bool
  rxSeq : Nat
  deriving DecidableEq, Repr

/-- An Ethernet frame received (R341, R342): its bytes from the destination MAC to the end of the payload, whether its FCS is
correct, and the RS-FEC codewords corrected and uncorrectable since the frame before. -/
structure EthFrame where
  bytes : List Byte
  fcsOk : Bool
  corrected : Nat
  uncorr : Nat
  deriving DecidableEq, Repr

/-- The datasets that an Announce message carries (IEEE 1588-2019, 9.3.4). -/
structure GmData where
  prio1 : Nat
  cls : Nat
  acc : Nat
  var : Nat
  prio2 : Nat
  id : Nat
  steps : Nat
  deriving DecidableEq, Repr

/-- A PTP message as received on the PTP port (R347): the local instant of its start-frame delimiter, its profile (0 or 1; any
other value stands for a kind the unit does not support), domain, sequence ID, source clock and port, two-step flag, the
timestamp it carries in ns, its correction in ns, the datasets of an Announce, and whether a response names the device's own port
(its port identity is a matter of IEEE 1588). -/
structure PtpMsg where
  t : Nat
  profile : Nat
  domain : Nat
  seq : Nat
  src : Nat
  port : Nat
  twoStep : Bool
  time : Nat
  corr : Int
  gm : GmData
  mine : Bool
  deriving DecidableEq, Repr

/-- What a descriptor with a host source reads from host memory (R355), and whether a byte of a host or DRAM source was poisoned
(R359). -/
structure DmaEnv where
  bytes : List Byte
  poison : Bool
  /-- The fabric cycles since the engine's last beat, oldest first: the channels that have data ready for a beat (R354). -/
  cycles : List (List Nat)
  deriving DecidableEq, Repr

/-- A host request as the record and doorbell write it (R377): window, interface, target, the reserved bytes, the
arguments ARG0 to ARG13 in order (missing ones are 0), and the tag. -/
structure Req where
  w : Nat
  f : Iface
  target : Nat
  rsvd : Word
  args : List Word
  tag : Nat
  deriving DecidableEq, Repr

/-- An error that a block raises of its own (R447): its block, code, kind, unit and arguments, and, where the operation was
refused, the response code. -/
structure Report where
  block : Nat
  code : Nat
  kind : Nat
  unit : Nat
  arg : Nat
  arg2 : Nat
  result : Nat
  deriving DecidableEq, Repr

structure AvsEnv where
  margin : Nat
  fault : Bool
  reached : Bool
  reported : Nat
  deriving DecidableEq, Repr

/-- One constructor for each row of the table of operations and events, in its order, but that those without operands stand last:
Lean compiles no constructor with operands beyond a certain number. -/
inductive Instr where
  /-- RESET_N (R398): RESET_N is driven low; the device is held in reset until the rising edge. -/
  | resetN (lowNs : Nat)
  /-- SUPPLY_LOW (R472): A monitored rail stays below 95 % for more than 2 µs; the device resets as for RESET_N. -/
  | supplyLow (ns : Nat)
  /-- BOOT (R400): The rising edge of RESET_N, or a restart, starts the boot ROM, which works through its stages. -/
  | boot (env : BootEnv)
  /-- REGS (R407): A REGS record applies its offset and value pairs as host writes. -/
  | regs (pairs : List (Nat × Word))
  /-- UCODE (R406): A UCODE record writes control store words from its start address. -/
  | ucode (start : Nat) (words : List Word)
  /-- SCHED (R406): A SCHED record writes schedule table step entries. -/
  | sched (first : Nat) (entries : List (Word × Word))
  /-- DMEM (R406): A DMEM record writes sequencer data memory words. -/
  | dmem (addr : Nat) (words : List Word)
  /-- PATCH (R408): A PATCH record writes its ranges into the control store and updates SEQ_PATCH_ID. -/
  | patch (id : Word) (ranges : List (Nat × List Word))
  /-- REPAIR_RECORD (R409): A REPAIR record applies its repair entries. -/
  | repairRecord (entries : List RepairEntry)
  /-- START (R415): The START record is validated; its start steps run at stage START. -/
  | start (steps : List StartStep) (env : StartEnv)
  /-- INFO (R406): An INFO record is ignored by the device. -/
  | info (bytes : List Byte)
  /-- VOLT (R413): A start step sets the VDD_CORE target over AVSBus and waits until it is reached. -/
  | volt (mv : Nat) (reached : Bool)
  /-- PLL (R413): A start step programs a PLL and waits for lock. -/
  | pll (n : Nat) (vco : Word) (locked : Bool)
  /-- CLKSEL (R413): A start step switches a clock domain's source without a glitch. -/
  | clksel (dom : Nat) (src : Nat)
  /-- START_POWER (R413): A start step makes a power domain transition and waits for its end. -/
  | startPower (dom : Nat) (st : Nat)
  /-- TRAIN (R413): A start step trains the named memory packages, checks the dies and repairs DRAM_ROW candidates. -/
  | train (pkgs : Nat) (env : TrainEnv)
  /-- START_WAIT (R413): A start step waits for the given number of microseconds. -/
  | startWait (us : Nat)
  /-- READ (R420): A flash READ operation copies LEN bytes from flash into BOOT_FL_BUF. -/
  | read (f : Iface)
  /-- PROGRAM (R420): A flash PROGRAM operation writes the buffer to flash and reads it back. -/
  | program (f : Iface)
  /-- ERASE_4K (R420): A flash operation erases a 4 KiB sector. -/
  | erase4k (f : Iface)
  /-- ERASE_64K (R420): A flash operation erases a 64 KiB block. -/
  | erase64k (f : Iface)
  /-- BOOT_RESTART (R419): A write of 1 to BOOT_CTL.RESTART leaves RECOVERY and boots again, and is discarded outside RECOVERY. -/
  | bootRestart (f : Iface) (env : BootEnv)
  /-- TICK_IN_EDGE (R19): A TICK_IN edge or sensor picture-start is accepted as a tick, or is ignored as early and counted. -/
  | tickInEdge (src : TickEdge) (t : Nat)
  /-- PTP_TICK_INSTANT (R17): The PTP time reaches a tick instant under source 2. -/
  | ptpTickInstant (t : Nat)
  /-- TIMER_TICK (R17): The local time reaches a tick instant under source 3. -/
  | timerTick (t : Nat)
  /-- TICK_HOLDOVER (R20): The tick deadline passes with no accepted edge; holdover begins. -/
  | tickHoldover (t : Nat)
  /-- HOLDOVER_TICK (R20): The device synthesises a tick each nominal period during holdover. -/
  | holdoverTick (t : Nat)
  /-- LIVE_OVERRUN (R28): A LIVE slice has not left its port within the latency bound, and a hardware fault is reported. -/
  | liveOverrun (ctx : Nat)
  /-- BOUNDARY (R198): The sequencer samples events, resolves waits, takes a pending tick and selects the next list. -/
  | boundary (t : Nat) (soft : Nat)
  /-- LDI (R204): The microword loads a zero-extended 22-bit immediate. -/
  | ldi (gd : Reg) (imm : Nat)
  /-- LDHI (R204): The microword loads the upper 16 bits of a register. -/
  | ldhi (gd : Reg) (imm : Nat)
  /-- ADD (R204): The microword adds two registers and an immediate. -/
  | add (gd : Reg) (ga : Reg) (gb : Reg) (imm : Nat)
  /-- SUB (R204): The microword subtracts a register and an immediate. -/
  | sub (gd : Reg) (ga : Reg) (gb : Reg) (imm : Nat)
  /-- AND (R204): The microword forms the bitwise AND of two registers. -/
  | and (gd : Reg) (ga : Reg) (gb : Reg)
  /-- OR (R204): The microword forms the bitwise OR of two registers. -/
  | or (gd : Reg) (ga : Reg) (gb : Reg)
  /-- XOR (R204): The microword forms the bitwise XOR of two registers. -/
  | xor (gd : Reg) (ga : Reg) (gb : Reg)
  /-- SHL (R204): The microword shifts a register left. -/
  | shl (gd : Reg) (ga : Reg) (imm : Nat)
  /-- SHR (R204): The microword shifts a register right, logically. -/
  | shr (gd : Reg) (ga : Reg) (imm : Nat)
  /-- SAR (R204): The microword shifts a register right, arithmetically. -/
  | sar (gd : Reg) (ga : Reg) (imm : Nat)
  /-- CMP (R204): The microword compares two registers and sets Z, N and C. -/
  | cmp (ga : Reg) (gb : Reg) (imm : Nat)
  /-- LD (R204): The microword loads a word from sequencer data memory. -/
  | ld (gd : Reg) (ga : Reg) (imm : Nat) (ecc : Ecc)
  /-- ST (R204): The microword stores a word to sequencer data memory. -/
  | st (ga : Reg) (gb : Reg) (imm : Nat)
  /-- RDREG (R207): The microword reads one device register and sets or clears FAIL. -/
  | rdreg (gd : Reg) (ga : Reg) (imm : Nat) (cyc : Nat)
  /-- WRREG (R207): The microword writes one device register, or the write is discarded and FAIL is set. -/
  | wrreg (ga : Reg) (gb : Reg) (imm : Nat) (cyc : Nat)
  /-- BR (R204): The microword branches if its condition holds. -/
  | br (cond : Cond) (target : Nat)
  /-- CALL (R204): The microword pushes the return address and branches if its condition holds. -/
  | call (cond : Cond) (target : Nat)
  /-- EVT_SET (R204): The microword adds one occurrence to a software event. -/
  | evtSet (ev : Nat)
  /-- WAIT (R210): The microword suspends the list until its event occurs or its timeout passes. -/
  | wait (ev : Nat) (unit : Nat) (count : Nat) (t : Nat)
  /-- WAIT_TIMEOUT (R210): A wait's timeout passes with no occurrence, and the list becomes READY with T = 1. -/
  | waitTimeout (l : Nat)
  /-- SLEEP (R210): The microword suspends the list for a time. -/
  | sleep (unit : Nat) (count : Nat) (t : Nat)
  /-- SLEEP_END (R210): A sleep's time passes, and the list becomes READY with T = 0. -/
  | sleepEnd (l : Nat)
  /-- FENCE_WR (R212): The microword suspends the list until the sequencer's earlier writes are visible. -/
  | fenceWr (unit : Nat) (count : Nat) (t : Nat)
  /-- FENCE_RW (R212): The microword suspends the list until the sequencer's earlier accesses are complete. -/
  | fenceRw (unit : Nat) (count : Nat) (t : Nat)
  /-- FENCE_HOST (R212): The microword suspends the list until a host read-back confirms the earlier host writes. -/
  | fenceHost (unit : Nat) (count : Nat) (t : Nat)
  /-- FENCE_DONE (R212): A suspending fence completes, and the list resumes. -/
  | fenceDone (l : Nat)
  /-- FENCE_TIMEOUT (R212): A suspending fence times out, and the list resumes with T = 1. -/
  | fenceTimeout (l : Nat)
  /-- FENCE_ENG (R212): The microword blocks until the named engines have finished, and returns a result code and mask. -/
  | fenceEng (gd : Reg) (imm : Nat) (cyc : Nat)
  /-- BUDGET (R204): The microword returns the list's remaining interval budget. -/
  | budget (gd : Reg)
  /-- TICKNO (R204): The microword returns part of the tick count. -/
  | tickno (gd : Reg) (imm : Nat)
  /-- FCT_BAND (R204): The unit command hands a band to a Facet engine slot. -/
  | fctBand (gd : Reg) (ga : Reg) (gb : Reg) (imm : Nat)
  /-- FCT_MOVE (R215): The unit command moves a final band to the record queue, in band order. -/
  | fctMove (gd : Reg) (ga : Reg) (gb : Reg) (imm : Nat)
  /-- FCT_CLOSE (R109): The unit command sends a picture's header, index, fill and trailer. -/
  | fctClose (gd : Reg) (ga : Reg) (gb : Reg) (imm : Nat)
  /-- FCT_DEC (R174): The unit command decodes a band of a closed playback picture, with checks and concealment. -/
  | fctDec (gd : Reg) (ga : Reg) (gb : Reg) (imm : Nat)
  /-- FCT_ABORT (R216): The unit command abandons the band in progress on an engine and rewinds its lane queues. -/
  | fctAbort (gd : Reg) (ga : Reg) (gb : Reg) (imm : Nat)
  /-- COD_PIC (R204): The unit command starts the next picture of a codec context, as a key picture or skipped. -/
  | codPic (gd : Reg) (ga : Reg) (gb : Reg) (imm : Nat)
  /-- COD_ROW (R32): The unit command signals a ready LIVE CTU row to the reserved engine. -/
  | codRow (gd : Reg) (ga : Reg) (gb : Reg) (imm : Nat)
  /-- OUT_PIC (R188): The unit command outputs the next picture of a playback stream, or raises LATE and repeats. -/
  | outPic (gd : Reg) (ga : Reg) (gb : Reg) (imm : Nat)
  /-- Q_MARK (R504): The unit command sets a Clasp in a queue and returns its low 24 bits. -/
  | qMark (gd : Reg) (ga : Reg) (gb : Reg) (imm : Nat)
  /-- Q_REWIND (R504): The unit command rewinds a queue, as producer, to a Clasp. -/
  | qRewind (gd : Reg) (ga : Reg) (gb : Reg) (imm : Nat)
  /-- Q_RELEASE (R504): The unit command releases a queue up to a Clasp. -/
  | qRelease (gd : Reg) (ga : Reg) (gb : Reg) (imm : Nat)
  /-- Q_NOTE (R204): The unit command enqueues a 16-byte notice as one packet. -/
  | qNote (gd : Reg) (ga : Reg) (gb : Reg) (imm : Nat)
  /-- DMA_GO (R204): The unit command starts a DMA channel with a ring TAIL or a descriptor. -/
  | dmaGo (gd : Reg) (ga : Reg) (gb : Reg) (imm : Nat)
  /-- BC_SEND (R338): The unit command sends a back-channel message for a Landing group. -/
  | bcSend (gd : Reg) (ga : Reg) (gb : Reg) (imm : Nat)
  /-- FLT_REPORT (R204): The unit command reports a software error to the fault collector. -/
  | fltReport (gd : Reg) (ga : Reg) (gb : Reg) (imm : Nat)
  /-- COD_ABORT (R161): The unit command ends the picture in progress on a context. -/
  | codAbort (gd : Reg) (ga : Reg) (gb : Reg) (imm : Nat)
  /-- PWR_REQ (R428): The unit command requests a power state for a domain. -/
  | pwrReq (gd : Reg) (ga : Reg) (gb : Reg) (imm : Nat)
  /-- CS_RELOAD (R219): An uncorrectable control store word is reloaded from the golden copy, and the run resumes. -/
  | csReload (mem : Nat) (index : Nat) (scrub : Bool) (goldBad : Bool)
  /-- SCRUB (R218): The scrubber reads one control store word and corrects it if needed. -/
  | scrub (addr : Nat) (ecc : Ecc)
  /-- SIGNAL_DETECT (R44): Signal is detected on enough lanes, and training leaves DOWN. -/
  | signalDetect (k : Link) (lanes : Nat)
  /-- CDR_LOCK (R44): Each lane's clock-data recovery reports lock. -/
  | cdrLock (k : Link) (lanes : Nat)
  /-- BLOCK_LOCK (R44): Each lane has seen 64 consecutive valid sync headers. -/
  | blockLock (k : Link) (lanes : Nat)
  /-- EQ_SEARCH_DONE (R45): The equaliser search over 16 steps completes on every lane, and the link continues training. -/
  | eqSearchDone (k : Link) (openings : List (List Nat))
  /-- TRAINING_TIMEOUT (R44): Training has not reached UP within 20 ms; the group returns to DOWN and counts a lock loss. -/
  | trainingTimeout (k : Link)
  /-- FAILED_RETRAIN (R44): 1 ms after FAILED, training restarts. -/
  | failedRetrain (k : Link)
  /-- EQ_ADAPT (R45): Once each millisecond, continuous adaptation may move a lane's peaking step. -/
  | eqAdapt (k : Link) (openings : List (Nat × Nat × Nat))
  /-- LOCK_LOSS (R58): A lane loses lock or is lost to its group; the group rebuilds from parity or loses data. -/
  | lockLoss (k : Link) (lane : Nat)
  /-- DATA_POSITION (R52): A data position of W blocks is received, rebuilt from parity if needed, and unpacked into samples. -/
  | dataPosition (g : Nat) (blks : List LaneBlock)
  /-- IDLE (R51): An IDLE control block is received. -/
  | idle (k : Link) (blks : List LaneBlock)
  /-- DESKEW (R50): A DESKEW marker aligns the lanes and updates skew and the slot map. -/
  | deskew (k : Link) (marks : List DeskewMark)
  /-- PICTURE_START (R64): A PICTURE_START control block begins a picture, which is accepted or refused whole. -/
  | pictureStart (g : Nat) (blks : List LaneBlock) (t : Nat)
  /-- TIMECODE (R51): A TIMECODE control block gives the picture's time address. -/
  | timecode (g : Nat) (blks : List LaneBlock)
  /-- METADATA (R56): A METADATA control block and its data blocks carry the picture's metadata. -/
  | metadata (g : Nat) (blks : List LaneBlock)
  /-- ROW_START (R57): A ROW_START control block begins a row, or the row is discarded or rows are lost. -/
  | rowStart (g : Nat) (blks : List LaneBlock)
  /-- PICTURE_END (R57): A PICTURE_END control block ends a picture, and any missing rows are lost. -/
  | pictureEnd (g : Nat) (blks : List LaneBlock)
  /-- REMAP_ACK (R58): The sender answers a remap or width request. -/
  | remapAck (g : Nat) (blks : List LaneBlock)
  /-- LOST_CONTROL_BLOCK (R51): No copy of a control position has a correct CRC, so the position is counted and CTL_ERR is raised. -/
  | lostControlBlock (k : Link) (blks : List LaneBlock)
  /-- REMAP_REFUSED (R58): No answer arrives before the following tick; the group stays DEGRADED. -/
  | remapRefused (g : Nat)
  /-- WAKE (R68): Lane-0 activity lasting 10 µs on a sleeping group raises WAKE and may request ON. -/
  | wake (g : Nat)
  /-- ROW_DECISION (R120): A FIXED segment row is decided against its allowance, and the finest fitting strand is kept. -/
  | rowDecision (e : Nat) (stall : Nat)
  /-- BAND_FINAL (R108): Every row of a band is decided and written; its Casket slot is freed. -/
  | bandFinal (e : Nat)
  /-- BAND_MOVED (R108): A band's segments have moved to the record queue as one packet. -/
  | bandMoved (e : Nat)
  /-- CBR_ROW_DECISION (R155): A coded CTU row is decided under CBR or CBR2, and the next base QP is set. -/
  | cbrRowDecision (e : Nat) (finer : SliceOut) (coarser : SliceOut) (stall : Nat)
  /-- CODEC_PICTURE_DONE (R144): A codec picture ends, and the engine switches to the next ready context. -/
  | codecPictureDone (e : Nat) (busy : Nat) (env : DecEnv)
  /-- PART (R172): A Facet playback part packet is placed in the staging buffer and may close the picture. -/
  | part (p : Nat)
  /-- PICTURE_CLOSE_TIMEOUT (R172): The second stream tick after a picture's first part arrives closes the picture. -/
  | pictureCloseTimeout (p : Nat) (picture : Nat)
  /-- BANDS_DECODED (R208): All bands of a Facet playback picture are decoded. -/
  | bandsDecoded (p : Nat)
  /-- NAL_UNIT (R173): An H.265 playback packet arrives and may close its access unit for decoding. -/
  | nalUnit (c : Nat) (nals : List NalInfo)
  /-- AU_CLOSE_TIMEOUT (R173): The second stream tick after an access unit's first NAL unit closes the access unit. -/
  | auCloseTimeout (c : Nat)
  /-- KEY_RETRY (R186): KEY_RETRY ticks pass with the picture still tainted, and the context sends another request. -/
  | keyRetry (c : Nat)
  /-- PACKET_START (R230): A producer starts a packet and takes the queue's packet lock, or waits; with the
  producers that ask in one fabric cycle. -/
  | packetStart (q : Nat) (prods : List Nat)
  /-- ENQUEUE (R236): A producer enqueues a word into the head store, tail store or middle. -/
  | enqueue (q : Nat) (prod : Nat) (bytes : List Byte) (poison : Bool)
  /-- EOP (R229): A producer ends a packet, filling the last word, with an optional fence and hand-over: of a
  reference packet, the DMA channel where the producer is the DMA engine, and whether the read of the owner entry is uncorrectable. -/
  | eop (q : Nat) (prod : Nat) (tag : Nat) (fence : PktFence) (ref : Option Nat) (ecc : Bool)
  /-- NOTICE_ISSUE (R229): Every word of a packet can be read, and its notice is issued. -/
  | noticeIssue (q : Nat) (t : Nat)
  /-- NOTICE_TAKE (R229): A consumer takes the oldest untaken notice, including a read of QF_Q_NOTICE at 0x6C. -/
  | noticeTake (q : Nat) (by_ : Taker)
  /-- RDATA_READ (R246): A read of QF_Q_RDATA at 0x9C advances READ by one word. -/
  | rdataRead (q : Nat) (f : Iface) (flip : Bool)
  /-- MARK (R231): A producer marks a Clasp at TAIL. -/
  | mark (q : Nat) (prod : Nat)
  /-- PRODUCER_REWIND (R232): A producer rewind discards bytes back to a Clasp. -/
  | producerRewind (q : Nat) (clasp : Nat)
  /-- CONSUMER_REWIND (R233): A consumer rewind moves READ back and presents packets again. -/
  | consumerRewind (q : Nat) (clasp : Nat)
  /-- RELEASE (R234): A release moves REL forward and frees words and chain buffers. -/
  | release (q : Nat) (clasp : Nat)
  /-- Q_RESET (R245): QF_Q_OP resets one queue and starts its chain walk. -/
  | qReset (q : Nat) (f : Iface)
  /-- CHAIN_WALK_DONE (R245): A queue reset's chain walk ends. -/
  | chainWalkDone (q : Nat)
  /-- FABRIC_RESET (R245): A write of QF_RESET.ALL resets the whole fabric and the pools. -/
  | fabricReset (f : Iface)
  /-- HEAD_REFILL (R236): The head store is refilled from the DRAM middle once the read returns. -/
  | headRefill (q : Nat) (words : Nat) (bad : List Nat) (linkBad : Bool)
  /-- ALLOCATE (R257): A requester's allocation wins pool arbitration and is answered. -/
  | allocate (pool : Nat) (asks : List AllocAsk)
  /-- FREE (R260): A free is checked against the owner and returns the buffer to the cache; with the frees of one cycle. -/
  | free (asks : List FreeAsk)
  /-- CACHE_REFILL (R250): The pool cache is refilled from the DRAM ring. -/
  | cacheRefill (k : Nat)
  /-- BP_H_ALLOC (R262): A host write starts an allocation as requester 13. -/
  | bpHAlloc (f : Iface) (val : Word)
  /-- BP_H_FREE (R262): A host write frees a handle as requester 13. -/
  | bpHFree (f : Iface) (val : Word) (ecc : Bool)
  /-- BP_P_MINFREE (R262): A read returns the least free count and then loads the present count. -/
  | bpPMinfree (f : Iface) (k : Nat)
  /-- DRAM_REQUEST (R277): A port request enters a channel queue; a write is acknowledged or a read is forwarded. -/
  | dramRequest (port : Nat) (addr : Nat) (op : DramOp) (t : Nat)
  /-- ROW_BATCH (R278): A channel activates a row and serves a batch of reads with ECC checking. -/
  | rowBatch (ch : Nat) (errs : List Ecc) (t : Nat)
  /-- WRITE_BATCH (R280): A channel issues a batch of queued writes. -/
  | writeBatch (ch : Nat) (t : Nat)
  /-- REFRESH (R281): tREFI passes, and a refresh is issued or postponed. -/
  | refresh (ch : Nat)
  /-- MR4_POLL (R282): The refresh-rate field is polled, and the interval is changed. -/
  | mr4Poll (ch : Nat) (rate : Nat)
  /-- POWER_DOWN_ENTRY (R284): A channel idle for PD_IDLE enters power-down. -/
  | powerDownEntry (ch : Nat)
  /-- SELF_REFRESH_ENTRY (R285): A channel idle for SR_IDLE enters self-refresh. -/
  | selfRefreshEntry (ch : Nat)
  /-- PATROL_SCRUB (R273): The scrubber reads a protected block and writes back corrections. -/
  | patrolScrub (ch : Nat) (ecc : Ecc)
  /-- WCK2DQ_OSC (R289): The interval oscillator runs, and the delays are adjusted. -/
  | wck2dqOsc (ch : Nat) (ok : Bool)
  /-- ZQ_LATCH (R289): A ZQ latch is issued. -/
  | zqLatch (n : Nat)
  /-- EVACUATION_DONE (R294): Evacuation ends, and the channel is out of service. -/
  | evacuationDone (ch : Nat) (lost : Nat)
  /-- CHANNEL_REPAIR (R295): Post-package repair, retraining and pattern tests of a retired channel complete. -/
  | channelRepair (ch : Nat) (ok : Bool) (rows : Nat)
  /-- RETURN_DONE (R296): The relocated blocks are copied back, and the channel returns. -/
  | returnDone (ch : Nat)
  /-- UNIT_CHOICE (R303): A port chooses its next unit by class and start tag. -/
  | unitChoice (p : Nat) (t : Nat)
  /-- WHEEL_SLOT (R309): A timing wheel slot comes, and the queues held by debt become eligible. -/
  | wheelSlot (t : Nat)
  /-- GATE_WINDOW (R313): A native-mode window of a class opens or closes. -/
  | gateWindow (p : Nat) (t : Nat)
  /-- GATE_ENTRY (R315): A gate list entry interval or cycle starts. -/
  | gateEntry (p : Nat) (t : Nat)
  /-- COMMIT (R317): Setting SCH_P_CL_CTL.COMMIT checks the admin list and makes it pending. -/
  | commit (p : Nat) (f : Iface)
  /-- CANCEL (R317): Setting SCH_P_CL_CTL.CANCEL clears PENDING. -/
  | cancel (p : Nat) (f : Iface)
  /-- LIST_SWAP (R317): At the swap time, the admin and oper banks exchange roles. -/
  | listSwap (p : Nat) (t : Nat)
  /-- PKT (R334): A Ferry packet is accepted, found to be a duplicate, or discarded with a NAK. -/
  | pkt (g : Nat) (pkt : FerryPkt)
  /-- ACK (R335): An ACK removes retry entries and releases queues. -/
  | ack (g : Nat) (seq : Nat)
  /-- NAK (R335): A NAK rewinds the queues and replays from the named SEQ. -/
  | nak (g : Nat) (seq : Nat)
  /-- REPLAY_TMO (R335): No ACK progress for REPLAY_TMO µs, so the transmitter replays as for a NAK. -/
  | replayTmo (g : Nat)
  /-- CREDIT (R336): A CREDIT block updates a channel's credit limit. -/
  | credit (g : Nat) (ch : Nat) (limit : Nat)
  /-- CREDIT_SEND (R336): At least every 100 µs, the receiver sends CREDIT for each enabled channel. -/
  | creditSend (g : Nat)
  /-- TRAIN_BLOCK (R331): A TRAIN block advances the Ferry handshake towards UP. -/
  | trainBlock (g : Nat) (blk : TrainBlk)
  /-- FERRY_TIMEOUT (R331): The Ferry link has not reached UP within 20 ms; the group fails and raises LINK_DOWN. -/
  | ferryTimeout (g : Nat)
  /-- KEY_REQ (R339): A received KEY_REQ back-channel message becomes a key picture request. -/
  | keyReq (g : Nat) (arg : Nat)
  /-- ETH_FRAME (R342): A received Ethernet frame is accepted and sent to PTP, a filter queue or the default queue. -/
  | ethFrame (e : Nat) (frame : EthFrame)
  /-- ETH_UP (R341): An Ethernet port reaches UP. -/
  | ethUp (e : Nat)
  /-- ETH_DOWN (R341): An Ethernet port leaves UP. -/
  | ethDown (e : Nat) (lock : Bool) (fec : Bool) (lf : Bool) (rf : Bool)
  /-- XCV_TX_FIR (R329): A write sets the transmit taps at the next lane block, or is discarded if out of limits. -/
  | xcvTxFir (g : Nat) (lane : Nat) (val : Word) (f : Iface)
  /-- SYNC (R348): A PTP Sync message updates the servo and may lock, unlock or step the time. -/
  | sync (m : PtpMsg)
  /-- FOLLOW_UP (R347): A PTP Follow_Up message supplies a two-step origin time. -/
  | followUp (m : PtpMsg)
  /-- ANNOUNCE (R347): A PTP Announce message enters the foreign table for time-transmitter selection. -/
  | announce (m : PtpMsg)
  /-- DELAY_RESP (R347): A PTP Delay_Resp message completes an end-to-end delay measurement. -/
  | delayResp (m : PtpMsg)
  /-- PDELAY_REQ (R347): A received Pdelay_Req is answered. -/
  | pdelayReq (m : PtpMsg)
  /-- PDELAY_RESP (R347): A PTP Pdelay_Resp message completes a peer delay measurement. -/
  | pdelayResp (m : PtpMsg)
  /-- DELAY_REQ_SEND (R347): The delay request interval passes, and a Delay_Req or Pdelay_Req is sent. -/
  | delayReqSend (t : Nat)
  /-- PPS_IN (R346): A rising edge of PPS_IN starts a second. -/
  | ppsIn (t : Nat)
  /-- PTP_SET_GO (R352): Setting GO sets PTP time at once, or is discarded. -/
  | ptpSetGo (f : Iface) (val : Word)
  /-- PTP_TIME_NS (R352): A read of nanoseconds latches the seconds. -/
  | ptpTimeNs (f : Iface)
  /-- DMA_C_DB (R363): A doorbell hands ring descriptors to a channel. -/
  | dmaCDb (k : Nat) (tail : Word) (f : Iface)
  /-- DMA_C_GO (R365): GO starts or queues a TPV-9M shadow set. -/
  | dmaCGo (k : Nat) (val : Word) (f : Iface)
  /-- DESCRIPTOR_READ (R363): A fetched descriptor starts, or halts the channel if OWN = 0. -/
  | descriptorRead (k : Nat) (words : List Word)
  /-- DESCRIPTOR_COMPLETE (R360): The read-back returns; the result is stored and the completion event occurs. -/
  | descriptorComplete (k : Nat) (env : DmaEnv)
  /-- HOST_READ_FAIL (R361): A host read times out or aborts, and the descriptor completes with an error. -/
  | hostReadFail (k : Nat) (timeout : Bool)
  /-- DMA_C_EN_CLEAR (R366): Clearing DMA_C_CTL.EN drops a channel at once. -/
  | dmaCEnClear (k : Nat) (f : Iface)
  /-- DMA_CTL_EN_CLEAR (R366): Clearing DMA_CTL.EN drops every channel at once. -/
  | dmaCtlEnClear (f : Iface)
  /-- DMA_C_RST (R366): RST clears a channel's HEAD, TAIL, shadow state and status. -/
  | dmaCRst (k : Nat) (f : Iface)
  /-- RESUME (R364): RESUME restarts a halted channel at HEAD. -/
  | resume (k : Nat) (f : Iface)
  /-- REQUEST_NOP (R381): The NOP request completes at once. -/
  | requestNop (r : Req)
  /-- FENCE (R381): The FENCE request issues a fence and answers when it completes; with whether the read-back of a
  FENCE_HOST has returned. -/
  | fence (r : Req) (back : Bool)
  /-- STREAM_START (R502): The request enables a stream's lists at the next tick. -/
  | streamStart (r : Req)
  /-- STREAM_STOP (R502): The request disables a stream's lists at the next tick. -/
  | streamStop (r : Req)
  /-- KEY_PICTURE (R112): The request asks for a key picture at the next tick. -/
  | keyPicture (r : Req)
  /-- SET_RATE (R381): The request changes a slot size or bit rate at the next tick. -/
  | setRate (r : Req)
  /-- RETIRE (R381): The request retires an engine or memory channel. -/
  | retire (r : Req)
  /-- REPAIR (R455): The request starts a repair attempt of a retired unit. -/
  | repair (r : Req)
  /-- RETRAIN (R381): The request restarts training of a Landing or Crossing group. -/
  | retrain (r : Req)
  /-- POWER (R425): The request asks for a power state of a domain. -/
  | power (r : Req)
  /-- OPERATING_POINT (R443): The request enters or leaves overdrive at a tick. -/
  | operatingPoint (r : Req)
  /-- SET_TICK (R381): The request changes the tick source and rate at a tick. -/
  | setTick (r : Req)
  /-- QUEUE_RESET (R245): The request resets a queue and completes when its chain walk ends. -/
  | queueReset (r : Req)
  /-- PATCH_SUBMIT (R222): The request verifies and stores a patch for the next restart. -/
  | patchSubmit (r : Req)
  /-- RESTART (R398): The request resets the device and boots again. -/
  | restart (r : Req)
  /-- FAULT_EXPORT (R460): The request copies fault records to queue 4 or to DRAM. -/
  | faultExport (r : Req)
  /-- FAULT_CLEAR (R461): The request clears VALID and PIN, the ring, or the unit counts. -/
  | faultClear (r : Req)
  /-- SEQ_MAIL (R382): The request copies a record into the sequencer mailbox and waits for an answer. -/
  | seqMail (r : Req)
  /-- HST_W_SEQANS (R382): The microcode writes its answer to a SEQ_MAIL request. -/
  | hstWSeqans (w : Nat) (val : Word)
  /-- SEQ_MAIL_TIMEOUT (R381): No answer arrives within 100 ms, and SEQ_MAIL completes with TIMEOUT. -/
  | seqMailTimeout (w : Nat)
  /-- HST_ACC_ERR (R376): Writing 1 to VALID clears the access-error latch. -/
  | hstAccErr (f : Iface) (val : Word)
  /-- IC_CLAIM (R387): A claim read returns the best pending source and makes it active. -/
  | icClaim (target : Nat) (fast : Bool) (f : Iface)
  /-- IC_COMPLETE (R388): A write to the claim register completes an active source. -/
  | icComplete (target : Nat) (fast : Bool) (val : Word) (f : Iface)
  /-- IC_PEND_SET (R390): A write sets a software pending bit. -/
  | icPendSet (n : Nat) (val : Word) (f : Iface)
  /-- MSIX_DELIVERY (R391): Delivery becomes possible, and a held MSI-X message is sent. -/
  | msixDelivery (stat : Word)
  /-- MSPI_WRITE (R374): A management SPI WRITE frame writes words to BAR0. -/
  | mspiWrite (addr : Nat) (words : List Word) (bits : Nat)
  /-- MSPI_READ (R375): A management SPI READ frame reads words from BAR0. -/
  | mspiRead (addr : Nat) (words : Nat)
  /-- BAR2_ACCESS (R371): A BAR2 TLP reaches DRAM through the host window port. -/
  | bar2Access (offset : Nat) (op : DramOp)
  /-- PAIR_LO_READ (R11): A read of a _LO register latches _HI for the interface. -/
  | pairLoRead (f : Iface) (addr : Nat)
  /-- PAIR_HI_WRITE (R11): A write of a _HI register commits both halves. -/
  | pairHiWrite (f : Iface) (addr : Nat) (val : Word)
  /-- RC_READ (R8): A read of an RC register returns its value and clears it. -/
  | rcRead (f : Iface) (addr : Nat) (words : Nat)
  /-- REGISTER_WRITE (R8): A write to a register with no row of its own is applied under its access code or discarded. -/
  | registerWrite (f : Iface) (addr : Nat) (words : List (Nat × Word))
  /-- KEYREQ_N (R481): A falling edge of KEYREQ_N is a key picture request. -/
  | keyreqN (lowNs : Nat)
  /-- FAULT_REPORT (R449): The collector takes a report, makes a record and may start a self-test. -/
  | faultReport (rep : Report)
  /-- SELF_TEST_DONE (R451): A targeted self-test ends, and the outcome and action are decided. -/
  | selfTestDone (unit : Nat) (res : Nat)
  /-- REPAIR_DONE (R455): A repair attempt ends with REPAIRED or REPAIR_FAIL. -/
  | repairDone (unit : Nat) (ok : Bool)
  /-- FAULT_INJECT (R462): Setting ARM injects a report into the named block. -/
  | faultInject (f : Iface) (val : Word)
  /-- FLT_STAT_CLEAR (R457): Writing 1 to VALID or PIN clears it. -/
  | fltStatClear (f : Iface) (val : Word)
  /-- DRAIN_END (R427): The in-flight transfers of a draining domain finish, and ENTERING begins. -/
  | drainEnd (d : Nat)
  /-- DRAIN_TIMEOUT (R427): PWR_DRAIN_TMO expires, and the remaining transfers are aborted. -/
  | drainTimeout (d : Nat)
  /-- TRANS_DONE (R427): A power transition ends, and any pending target begins. -/
  | transDone (d : Nat)
  /-- AVS_LOOP (R435): Once each millisecond, the voltage loop adjusts VDD_CORE. -/
  | avsLoop (env : AvsEnv)
  /-- SENSOR_READ (R437): Every 50 µs the thermal sensors are read and Tj is formed. -/
  | sensorRead (readings : List (Option Int))
  /-- PLL_UNLOCK (R433): A PLL loses lock, and its domains move to the fast oscillator. -/
  | pllUnlock (n : Nat)
  /-- PLL_RELOCK (R433): A PLL relocks, and its domains switch back at the next tick. -/
  | pllRelock (n : Nat)
  /-- RESERVED_BLOCK_TYPE (R51): A control block of a reserved type, or naming another stream, is discarded, counted and raises CTL_ERR (or CRC_ERR on a Ferry link). -/
  | reservedBlockType (k : Link) (blks : List LaneBlock)
  /-- FENCE_REQUEST_TIMEOUT (R381): A host FENCE request whose fence has not completed after 10 ms completes with TIMEOUT. -/
  | fenceRequestTimeout (w : Nat)
  /-- FLASH_OP_DONE (R420): A flash program, erase or read ends, BOOT_FL_RES takes its code and BUSY clears, and the next waiting flash operation starts. -/
  | flashOpDone (ok : Bool)
  /-- DMA_BUSY_CLEAR (R366): After a channel or the engine is dropped, the last request already issued returns or times out, and BUSY falls to 0. -/
  | dmaBusyClear (k : Nat)
  /-- SUPPLY_RETURN (R472): A monitored rail that caused a reset returns above its threshold, and the device boots again. -/
  | supplyReturn (env : BootEnv)
  /-- POWER_ON (R398): Power is applied; the device is held in reset and every AON register returns to its reset value. -/
  | powerOn
  /-- END (R405): The END record ends the sequence of records. -/
  | endRecord
  /-- NOP (R204): The microword does nothing. -/
  | nop
  /-- STEP_END (R197): The microword ends the step run and moves the list to its next step entry. -/
  | stepEnd
  /-- TICK_END (R204): The microword marks the list done for this tick. -/
  | tickEnd
  /-- HALT (R204): The microword stops the list and its bound stream. -/
  | halt
  /-- RET (R204): The microword pops the return stack into the program counter. -/
  | ret
  /-- ILLEGAL (R206): An illegal microword or step TRIG halts its list, and a software error is reported. -/
  | illegal
  /-- ANNOUNCE_TMO (R348): The announce timeout passes, and the servo enters HOLDOVER. -/
  | announceTmo
  /-- PCIE_RESET (R373): PERST_N, a Function Level Reset or link-down resets the endpoint only. -/
  | pcieReset
  /-- TEST_TIMEOUT (R453): A self-test exceeds its time limit and gives LASTING. -/
  | testTimeout
  /-- AUTO_REPAIR (R455): RETEST ticks after a retirement, an automatic repair attempt starts. -/
  | autoRepair
  /-- LOG_APPEND (R456): An entry is appended to the repair log by flash operation. -/
  | logAppend
  /-- THERMAL_LOOP (R439): Once each millisecond, the loop slows or speeds engines. -/
  | thermalLoop
  /-- OD_TIMEOUT (R443): OD_MV is not reached within 2 ms, and the request completes with TIMEOUT. -/
  | odTimeout
  /-- WEAR_BIN (R442): Each minute the wear accumulator moves to a new bin. -/
  | wearBin
  /-- XTAL_LOST (R433): The crystal is lost, and the always-on domain moves to the oscillator. -/
  | xtalLost
  /-- BUS_MASTER_ENABLE_CLEAR (R373): The host clears Bus Master Enable, so in-flight DMA descriptors with a host end complete with ABORTED and MSI-X messages are held pending. -/
  | busMasterEnableClear
  /-- XTAL_RETURN (R433): The crystal returns after a loss, and the PLLs may begin to relock. -/
  | xtalReturn
  deriving DecidableEq, Repr

end Sys2Proof
end

