-- ==== Sys2Proof/Decode.lean ====
section
/-! DEFINITION. The decoders of the block: the command that a word of the table spells (no row of the table gives bits), the
microwords of the sequencer (R201, R204), and the control positions of a lane link (R51). -/

namespace Sys2Proof

/-- The table of operations and events gives no row any bits, so no word spells a command. -/
def decodeTableWord (nbits w : Nat) : Option Instr :=
  match nbits, w with
  | _, _ => none

end Sys2Proof
end

