-- ==== Sys2Proof/Config.lean ====
section
/-! DEFINITION. What the spec leaves to other standards or leaves open: constants with no body, so that no proof can
see a value of them (log entries 2, 8 and 9). -/

namespace Sys2Proof.Config

/-- A byte the spec calls undefined, fresh for each value of the state's counter (R366; log 2). -/
opaque freeByte : Nat → Byte

/-- A word the spec calls undefined, fresh for each value of the state's counter (R366; log 2). -/
opaque freeWord : Nat → Word

/-- The cost that the quarter-resolution analysis gives a picture of a context (R157 names the analysis, not its arithmetic;
log 9). -/
opaque lookCost : (ctx tick : Nat) → Nat

/-- In-loop filtering as the reconstruction of a decided CTU row joins that of the rows above it: the planes of both, their common
edge filtered (R156 gives when, ITU-T H.265 gives how; log 9). -/
opaque edgeFilter : (above row : List (List (List Nat))) → List (List (List Nat))

/-- SHA-384 of a byte string (check 5 and 6 of R404; the algorithm is a named standard outside the spec; log 8). -/
opaque sha384 : List Byte → List Byte

/-- Whether 97 bytes are a SEC1 uncompressed point on P-384 (check 5 of R404; log 8). -/
opaque onP384 : List Byte → Bool

/-- ECDSA P-384 verification of a signature over a digest (check 6 of R404; log 8). -/
opaque ecdsaVerify : (pubkey digest signature : List Byte) → Bool

/-- AES-256-GCM with the fused device key: the plaintext, or none where the tag fails (check 7 of R404; log 8). -/
opaque gcmOpen : (iv aad cipher tag : List Byte) → Option (List Byte)

/-- The PI servo's frequency for an offset in ns and the sum of earlier offsets, before the limit of ±MAXADJ, in 1/65,536
ppm (R348 gives the gains and the limit, not the arithmetic; log 10). -/
opaque servoFreq : (kp ki : Nat) → (offset sum : Int) → Int

/-- The repair word that a row check produces (R409, R451: the layout is not published; log 11). -/
opaque repairWord : (unit row : Nat) → Word

/-- The redundant rows of a unit of FLT_UNIT, least over its memories (R451, R463: the spec gives no number; log 11). -/
opaque redundantRows : (unit : Nat) → Nat

end Sys2Proof.Config
end

