-- ==== Sys2Proof/Machine/State.lean ====
section
/-! DEFINITION. The state of the Philvo as plain data, the reasons a step can stop, and the state right after reset.
Every register of BAR0 has one home: the sparse map `regs`, keyed by BAR0 offset, unless its docstring names a field whose
view it is. An offset that `regs` does not list reads the reset value of the manual's tables (RegMap.lean). -/

namespace Sys2Proof.Machine

/-- The reasons a step faults. Raised by no meaning: the spec describes what the block does in every case it names, and
an error of the block is an effect on its registers. The one constructor is kept so that the type is closed and named;
its absence from the meanings is safe, since nothing stops. -/
inductive Fault
  /-- Never raised (safe). -/
  | none
  deriving DecidableEq, Repr

/-- The reasons a step is refused. -/
inductive Refusal
  /-- Raised by an arm of the dispatcher whose command has no meaning yet (safe: nothing is claimed of it). -/
  | notModelled (mnemonic : String)
  deriving DecidableEq, Repr

/-- The access codes of R8. -/
inductive Acc | rw | ro | wo | w1c | w1s | rc | rwt | rwl
  deriving DecidableEq, Repr

/-- One row of a register table: its base, its repetitions as (count, stride) with the widest stride first, its access
code, its reset value and its non-reserved bits. -/
structure RegRow where
  base : Nat
  ins : List (Nat × Nat)
  acc : Acc
  reset : Nat
  mask : Nat
  deriving DecidableEq, Repr

/-- What fuses and straps fix (R3, R370, R404, R462): no command changes it. -/
structure Fuse where
  /-- The grade: TPV-9M (R3, R4). -/
  m : Bool
  /-- The -I temperature grade (R3). -/
  ind : Bool
  /-- Vendor ID (R370). -/
  vendor : BitVec 16
  /-- The fused key hash, 48 bytes (R404 check 5). -/
  keyHash : List Byte
  /-- The factory injection fuse (R462). -/
  inject : Bool
  /-- The TEST_MODE strap, sampled during reset (R422, R462). -/
  testMode : Bool
  deriving DecidableEq, Repr

/-! ### Time and the tick (R17 to R22) -/

structure Clk where
  /-- Local time in ns since reset (R17 source 3). -/
  now : Nat
  /-- Instant of the last tick, accepted or synthesised. -/
  lastTick : Option Nat
  /-- Instant of the tick before it, for the measures of an interval. -/
  prevTick : Option Nat
  /-- The 48-bit tick counter (GLB_TICK_CNT is its view). -/
  count : Nat
  /-- The k of the last tick of source 2 or 3 (R17, R21, R348). -/
  lastK : Option Nat
  /-- GLB_TICK_STAT.HOLDOVER. -/
  holdover : Bool
  /-- Ticks the sequencer has not yet taken at a boundary, oldest first (R26, R198). -/
  waiting : List Nat
  /-- GLB_TICK_STAT.LAG (R30). -/
  lag : Nat
  deriving DecidableEq, Repr

/-! ### Power, clocks and thermal control (R423 to R445) -/

inductive PState | on | ret | off
  deriving DecidableEq, Repr

inductive Phase | stable | draining | entering | exiting
  deriving DecidableEq, Repr

/-- Who made a power request (PWR_D_STAT.LAST_BY), the host through a request window. -/
inductive ReqBy | host (w : Nat) | seq | wake | dev
  deriving DecidableEq, Repr

/-- One power domain (PWR_D_STAT is its view). -/
structure Domain where
  st : PState
  phase : Phase
  target : PState
  by_ : Option ReqBy
  pend : Option (PState × ReqBy)
  last : Nat
  lastBy : Nat
  /-- The forced OFF of R440. -/
  forced : Bool
  deriving DecidableEq, Repr

structure Thm where
  /-- The junction temperature in °C (R437). -/
  tj : Int
  /-- A shutdown of R440 has happened and the device has not resumed. -/
  shut : Bool
  /-- Tj has fallen below 100 °C after the shutdown, with AUTO_RESUME = 1. -/
  resume : Bool
  /-- Lists whose enables the shutdown cleared. -/
  stopped : List Nat
  /-- Whether any engine is slowed, and whether Tj has reached 115 °C: the edges of SLOW and THROTTLE. -/
  slow : Bool
  throttle : Bool
  /-- Milliseconds in overdrive, the current bin first, at most 60 bins (R442). -/
  bins : List Nat
  od : Bool
  /-- Overdrive ends at the next tick (R444), and whether the device makes the end itself. -/
  odEnd : Option Bool
  /-- VDD_CORE has been raised for a pending entry, and whether the regulator has reported OD_MV reached. -/
  odRaised : Bool
  odReached : Bool
  /-- The VDD_CORE target of the nominal point, from the last VOLT step (R434). -/
  nominalMv : Nat
  /-- AVS holds its target after a fault (R435). -/
  avsHold : Bool
  /-- Sensors whose last reading was invalid (R437). -/
  bad : List Nat
  deriving DecidableEq, Repr

def Thm.fresh : Thm := ⟨0, false, false, [], false, false, [], false, none, false, false, 0, false, []⟩

/-- The clock sources (R413, R414, R431 to R433): the source code of a clock domain where it is not its first one; the PLLs locked and
their VCO in MHz; clock domains that left a PLL that lost lock, and PLLs that have relocked since the last tick; and whether
the crystal runs. -/
structure Plls where
  src : List (Nat × Nat)
  lock : List Nat
  vco : List (Nat × Nat)
  lost : List (Nat × Nat)
  back : List Nat
  xtal : Bool
  deriving DecidableEq, Repr

def Plls.fresh : Plls := ⟨[], [], [], [], [], true⟩

/-! ### Faults (R446 to R464) -/

inductive Outc | none | transient | repaired | lasting | pending
  deriving DecidableEq, Repr

/-- A fault record (R447). -/
structure FRec where
  tick : Nat
  cycle : Nat
  block : Nat
  code : Nat
  kind : Nat
  inj : Bool
  outcome : Outc
  unit : Nat
  arg : Nat
  arg2 : Nat
  seq : Nat
  result : Nat
  action : Nat
  /-- The self-test must fail (FORCE_FAIL), and the count of R452 had reached ERR_TH at the report. -/
  force : Bool
  overTh : Bool
  deriving DecidableEq, Repr

/-- A unit of FLT_UNIT (R452 to R455). -/
structure FUnit where
  /-- Tick counts of the HW reports within the window, newest first. -/
  hits : List Nat
  /-- 3 while an attempt runs, 4 once one has failed, else 0. -/
  st : Nat
  /-- Redundant rows that remaps have taken. -/
  rows : Nat
  attempts : Nat
  /-- The tick at which the unit was retired or its last automatic attempt failed, for R455. -/
  since : Nat
  /-- The attempt in progress is automatic. -/
  auto : Bool
  deriving DecidableEq, Repr

structure Flt where
  /-- Reports that the collector has not yet taken, by block, oldest first, at most 4 each (R449). -/
  bufs : List (Nat × List FRec)
  /-- The block after which the round-robin starts. -/
  ptr : Nat
  valid : Bool
  pin : Bool
  first : Option FRec
  last : Option FRec
  /-- The history, newest first, at most 256 (R459). -/
  ring : List FRec
  /-- Records made since power-on. -/
  made : Nat
  /-- Records whose self-test runs, by unit or memory; further reports wait behind the first of their unit (R453). -/
  tests : List FRec
  units : List (Nat × FUnit)
  /-- ARM of FLT_INJ_CTL is pending in a block's buffer. -/
  armed : Bool
  /-- Repair log entries waiting for the flash (R410, R456), oldest first, 8 bytes each. -/
  logq : List (List Byte)
  /-- The sequence number of the next log entry. -/
  logSeq : Nat
  deriving DecidableEq, Repr

/-! ### Interrupts (R384 to R397) -/

structure Ic where
  /-- Active sources: source, target, fast (R387). -/
  active : List (Nat × Nat × Bool)
  /-- The 8 lines as last seen, line 2t + k at bit 2t + k, for the messages of R391. -/
  lines : BitVec 8
  deriving DecidableEq, Repr

/-! ### Request windows (R377 to R383) -/

/-- What a request in a window waits for. -/
inductive Wait
  /-- The next tick (R379). -/
  | tick
  /-- A fence (R38): its kind and mask of engines, and the work that they had when it was issued. -/
  | fence (kind : Nat) (mask : Nat) (jobs : List (Nat × Nat × Nat × Nat))
  /-- A power transition of a domain (R425). -/
  | power (d : Nat)
  /-- The chain walk of a queue (R245). -/
  | walk (q : Nat)
  /-- The microcode's answer (R382). -/
  | mail
  /-- The regulator (R443). -/
  | volt
  /-- The first tick from the new source (SET_TICK). -/
  | source
  /-- The patch write (R411). -/
  | patch
  deriving DecidableEq, Repr

structure Window where
  tag : Nat
  wait : Wait
  deriving DecidableEq, Repr

/-! ### The queue fabric (R225 to R247) -/

/-- A queue word (R225): its 32 data bytes, the 4 parity bits of its 8-byte groups, and POISON. -/
structure QWord where
  data : List Byte
  parity : BitVec 4
  poison : Bool
  deriving DecidableEq, Repr

/-- A packet of a queue from its start to its release (R229): positions are byte counts since the queue's reset. -/
structure Pkt where
  /-- The producer that sent it (R230). -/
  prod : Nat
  start : Nat
  len : Nat
  tag : Nat
  /-- The word after its last word, in bytes. -/
  stop : Nat
  /-- The handle of a reference packet, with the requester that handed it over (R261). -/
  handle : Option (Word × Nat)
  /-- The fence of its EOP, which its notice waits for (R242). -/
  fence : PktFence
  issued : Bool
  taken : Bool
  poison : Bool
  replay : Bool
  seq : Nat
  /-- The instant of its notice (R319). -/
  at_ : Nat
  deriving DecidableEq, Repr

/-- A chain buffer of a queue's middle (R237): its handle, the index of its first word and the words it holds. -/
structure Chain where
  handle : Word
  first : Nat
  n : Nat
  deriving DecidableEq, Repr

/-- What a stalled producer has still to do, in order (R237, R239): bytes of its open packet, or its EOP. -/
inductive QOp
  | bytes (l : List Byte) (poison : Bool)
  | eop (tag : Nat) (fence : PktFence) (handle : Option (Word × Nat))
  | start (prod : Nat)
  deriving DecidableEq, Repr

/-- A whole packet of a producer that waits for the packet lock (R230), for its own fenced packet (R242) or for the walk of a
reset (R245). -/
structure HeldPkt where
  prod : Nat
  tag : Nat
  bytes : List Byte
  poison : Bool
  fence : PktFence
  deriving DecidableEq, Repr

/-- One queue. Positions are counts of bytes since the last reset; their registers show them mod 2³² (R228). -/
structure Queue where
  tail : Nat
  read : Nat
  rel : Nat
  /-- The words from the word holding REL, oldest first; the last may be partly filled. -/
  words : List QWord
  /-- The producer that holds the packet lock and the start of its open packet (R230). -/
  lock : Option (Nat × Nat)
  /-- Producers waiting for the lock, and the round-robin pointer. -/
  waiters : List Nat
  ptr : Nat
  /-- Packets of waiting producers, oldest first. -/
  held : List HeldPkt
  /-- Packets that have ended and are not wholly released, oldest first. -/
  pkts : List Pkt
  seq : Nat
  /-- Word counts since reset: words before `headEnd` have reached the head store, words from there before `midEnd` lie in
  the DRAM chain, and the rest in the tail store (R236). -/
  headEnd : Nat
  midEnd : Nat
  chain : List Chain
  /-- SPILL_NOW in words, where the threshold loop has moved it (R238). -/
  spillNow : Option Nat
  /-- The drain of the tail store waits for a P2 buffer (R237). -/
  drainWait : Bool
  /-- What the stalled producer still holds, and the instant from which its stall is still to be counted, with whether full stores
  are its reason (R237, R239). -/
  backlog : List QOp
  stall : Option (Nat × Bool)
  /-- Since the last tick: the producer stalled on full stores, and the queue drained to its middle (R238). -/
  stalled : Bool
  drained : Bool
  poisonSeen : Bool
  cut : Bool
  /-- Chain buffers left to a reset's walk (R245), and whether the walk runs. -/
  walk : Bool
  enq : Nat
  deq : Nat
  deriving DecidableEq, Repr

/-- The state of a queue after its reset. -/
def Queue.fresh : Queue :=
  ⟨0, 0, 0, [], none, [], 0, [], [], 0, 0, 0, [], none, false, [], none, false, false, false, false, false, 0, 0⟩

/-! ### Buffer pools (R248 to R262) -/

/-- A requester that waits for a pool's arbitration (R257), and whether it has come there by spill-up (R256). -/
structure PoolAsk where
  r : Nat
  spilled : Bool
  deriving DecidableEq, Repr

/-- One pool's free store and arbitration (R250, R251, R257). -/
structure Pool where
  /-- The cache, the handle freed last first. -/
  cache : List Word
  /-- The next index of the counter of R251. -/
  next : Nat
  /-- The free ring, whose handles lie in DRAM at BP_P_RING: the place of the oldest, and how many it holds. -/
  ringHead : Nat
  ringCount : Nat
  /-- Requesters that wait from an earlier cycle. -/
  waiting : List PoolAsk
  ptr : Nat
  deriving DecidableEq, Repr

def Pool.fresh : Pool := ⟨[], 0, 0, 0, [], 0⟩

/-! ### Pictures, Landing and the Facet engines (R41 to R135) -/

/-- Where a band of samples lies (R63, R64). -/
inductive Place | casket (slot : Nat) | overflow (k : Nat)
  deriving DecidableEq, Repr

/-- A coded segment's index entry (R80). -/
structure SegOut where
  len : Nat
  missing : Bool
  degraded : Bool
  deriving DecidableEq, Repr

/-- How far a band has come: filling at Landing, handed to the sequencer, handed to an engine, being coded, final, ordered
to move, moved (R63, R108, R215). -/
inductive BandSt | filling | complete | handed | coding | final | moving | moved
  deriving DecidableEq, Repr

structure Band where
  st : BandSt
  place : Option Place
  /-- Samples of its rows, a lost one as 0, and the blocks (block row, block) that hold a lost sample. -/
  rows : List (List Nat)
  miss : List (Nat × Nat)
  eng : Nat
  segs : List SegOut
  /-- Kept indices of its decided rows (R121). -/
  qis : List Nat
  /-- Its budget and the bytes of its decided rows (R119, R120); the carry-in was 0 by R129 or R454. -/
  bb : Nat
  used : Nat
  carry0 : Bool
  /-- What the present coding has added to the picture's MISSING_BLOCKS and DEGRADED_ROWS. -/
  nMiss : Nat
  nFlat : Nat
  deriving DecidableEq, Repr

def Band.empty : Band := ⟨.filling, none, [], [], 0, [], [], 0, 0, false, 0, 0⟩

/-- A RAW picture from its acceptance until it is closed. -/
structure FPic where
  stream : Nat
  /-- Its ordinal among the pictures accepted since the stream started, and its number on the link. -/
  ord : Nat
  no : Nat
  /-- PICTURE, TICK and the flags of the header (R110). -/
  number : Nat
  tick : Nat
  resync : Bool
  gap : Bool
  tc : Option Word
  info : List Byte
  /-- RWT values in force at its tick: noise table, slot, rate control. -/
  nt : List Nat
  slot : Nat
  rc : Word
  /-- Rows received or lost of bands that still fill; a lost sample is none. -/
  part : List (Nat × List (Option Nat))
  bands : List (Nat × Band)
  damaged : Bool
  /-- A retirement or an abandoned band: bands handed out later have carry-in 0 (R119). -/
  carry0 : Bool
  /-- The slot that took a band last, and whether bands go round-robin over the remaining slots (R129). -/
  rr : Nat
  rrOn : Bool
  /-- Bands moved so far (R108). -/
  nextMove : Nat
  /-- FALLBACK has been raised for the picture (R126). -/
  fell : Bool
  degradedRows : Nat
  missing : Nat
  /-- Groups of the gang that were not up at some time since the picture was accepted, and have not begun it since (R57, R59). -/
  gone : List Nat
  /-- Bytes of the segments moved so far, with their CRC part: the segments' bytes in picture order. -/
  bytes : List Byte
  deriving DecidableEq, Repr

/-- A Facet record stream's state beside its registers (R110 to R113, R502). -/
structure FStream where
  ticks : Nat
  accepted : Nat
  /-- A picture was accepted in the present stream interval; the next coded picture has a gap; a key request waits. -/
  took : Bool
  gap : Bool
  /-- Number of a picture on the link that was refused (R64). -/
  refused : Option Nat
  keyAsked : Bool
  resync : Bool
  /-- Mean kept qi of the previous picture (R121). -/
  lastQi : Option Nat
  /-- The time-code generator (R111). -/
  tc : Word
  pics : List FPic
  deriving DecidableEq, Repr

def FStream.fresh : FStream := ⟨0, 0, false, false, none, false, false, none, 0, []⟩

/-- The picture that a Landing group is receiving. -/
structure GPic where
  no : Nat
  /-- The accepted RAW picture's ordinal, or the frame buffer of a DEVELOPED one. -/
  ord : Option Nat
  fb : Option Nat
  lastRow : Option Nat
  rows : Nat
  damaged : Bool
  deriving DecidableEq, Repr

/-- One Landing group (R41 to R69). -/
structure LGroup where
  st : Nat
  sig : Nat
  lock : Nat
  excl : Nat
  /-- Lanes that an equaliser search has set once (R45). -/
  eqd : Nat
  /-- Slot of each physical lane, 0xF for unused. -/
  map : List Nat
  w : Nat
  /-- A parity lane stands apart. -/
  par : Bool
  absorbed : Bool
  /-- Consecutive markers with a valid map in training, and the W and parity they gave. -/
  marks : Nat
  markW : Nat
  markPar : Bool
  seq : Nat
  /-- The slot to remap and whether a width request is due at the next tick (R58, R59). -/
  lost : Option Nat
  narrow : Bool
  /-- The request sent and not answered: whether it is a width request, its argument, its SEQ. -/
  ask : Option (Bool × Nat × Nat)
  /-- The map, width and parity that take effect at the next PICTURE_START. -/
  next : Option (List Nat × Nat × Bool)
  /-- The row being received: its number and its data blocks so far, a lost one as none. -/
  row : Option Nat
  blks : List (Option (BitVec 64))
  /-- The metadata run being received (R55): its LENGTH, whether it is kept, and its data blocks so far, a lost one as none. -/
  info : Option (Nat × Bool × List (Option (BitVec 64)))
  /-- Data outside a row has been counted since the last control block. -/
  stray : Bool
  pic : Option GPic
  /-- Frame buffers: the next in turn, those that readers hold (buffer, context), and the newest complete one with its
  tick and time address (R65). -/
  fbNext : Nat
  fbHeld : List (Nat × Nat)
  fbLast : Option (Nat × Nat × Option Word)
  tcBlk : Option Word
  /-- In the owner of a gang (R43, R65): the number of the picture that its groups started last, its buffer, and the groups that
  have ended it; and whether the newest complete picture went to no buffer. -/
  fbPic : Option (Nat × Option Nat × List Nat)
  fbLost : Bool
  /-- The instant at which the group entered EQ (R45). -/
  eqAt : Nat
  deriving DecidableEq, Repr

def LGroup.fresh : LGroup :=
  ⟨0, 0, 0, 0, 0, List.replicate 8 15, 1, false, false, 0, 0, false, 0, none, false, none, none, none, [], none, false, none, 0,
    [], none, none, none, false, 0⟩

/-- A coded segment row: its bytes, its reconstruction, and its counts. -/
structure RowOut where
  bytes : List Byte
  rows : List (List Nat)
  verbs : Nat
  xfrms : Nat
  missing : Nat
  deriving DecidableEq, Repr

/-- The segments of the band that an engine codes, as far as they are decided: the rows decided, the reconstruction of the last of
them and its kept qi. -/
structure SegWork where
  rows : Nat
  above : Option (List (List Nat))
  kept : Nat
  len : Nat
  missing : Bool
  degraded : Bool
  deriving DecidableEq, Repr

/-- An undecided row in a lane's part of the strand buffer (R123, R132): its segment and row, its centre index, its strands (fine,
centre, coarse) and its FLAT coding, each with its reconstruction, whether it is to be FLAT (R126), and the Clasp of its first word
in the lane queue, behind which its centre strand or its FLAT coding stands. -/
structure Undec where
  m : Nat
  r : Nat
  qc : Nat
  strands : List RowOut
  flat : RowOut
  forced : Bool
  clasp : Nat
  deriving DecidableEq, Repr

/-- The band that a Facet engine codes. -/
structure FWork where
  stream : Nat
  ord : Nat
  n : Nat
  /-- Rows decided so far, in decision order (R106). -/
  idx : Nat
  /-- Restarts left of each lane (R126). -/
  left : List Nat
  centre : Nat
  segs : List (Nat × SegWork)
  /-- The undecided rows of its lanes, at most 4 a lane, in the order in which they started. -/
  und : List Undec
  /-- TAIL of the lane queues at the band's first rows, and whether a retirement has stopped the band (R129). -/
  clasps : List Nat
  stopped : Bool
  deriving DecidableEq, Repr

/-- One Facet engine. -/
structure FEngine where
  /-- FCT_STAT.STATE: 1 IDLE, 2 ENCODE, 3 DECODE, 4 SPARE, 5 RETIRED, 6 SELFTEST. -/
  st : Nat
  work : Option FWork
  /-- Bands handed to it and not started: stream, ordinal, band. -/
  queue : List (Nat × Nat × Nat)
  /-- Playback bands handed to it and not decoded: playback stream, picture, band (R174). -/
  dec : List (Nat × Nat × Nat)
  deriving DecidableEq, Repr

def FEngine.fresh : FEngine := ⟨1, none, [], []⟩

structure Fct where
  streams : List (Nat × FStream)
  engines : List (Nat × FEngine)
  /-- The slots: physical engine of slots 0 to A − 1, and the engines in state SPARE (FCT_SLOTS is the view). -/
  slots : List Nat
  /-- Engines retired in the present tick interval (R130). -/
  pendRet : List Nat
  deriving DecidableEq, Repr

/-! ### Crossing (R327 to R351) -/

/-- An entry of the retry list (R335): a CONTROL packet with its message, or a part of the queue packet of queue q that lies
from `start` to `stop`. -/
structure Retry where
  seq : Nat
  ctl : Option (List Byte)
  q : Nat
  start : Nat
  stop : Nat
  last : Bool
  ch : Nat
  units : Nat
  deriving DecidableEq, Repr

/-- A queue packet open on a receive channel (R337): its Clasp, TAG, prefix length and the bytes received; where its group does
not hold the queue's lock, the bytes themselves, which enter the queue with the packet's end, and whether any is poisoned. -/
structure RxOpen where
  clasp : Nat
  tag : Nat
  len : Nat
  got : Nat
  buf : Option (List Byte × Bool)
  deriving DecidableEq, Repr

/-- A receive channel (R336): units by which its limit has grown, the growth last sent, units accepted, the ends of accepted
packets that their queue has not released with their units, and the open packet. -/
structure RxChan where
  grown : Nat
  told : Nat
  got : Nat
  held : List (Nat × Nat)
  opn : Option RxOpen
  deriving DecidableEq, Repr

def RxChan.fresh : RxChan := ⟨0, 0, 0, [], none⟩

/-- A transmit channel (R336): the limit last received and the units charged, mod 2²⁴. -/
structure TxChan where
  limit : Nat
  used : Nat
  deriving DecidableEq, Repr

/-- A header template's counts (R343, R345): RTP packets since the stream's start, the IPv4 identification, and UDP packets. -/
structure Tpl where
  rtp : Nat
  ipId : Nat
  pkts : Nat
  deriving DecidableEq, Repr

/-- One Crossing group (R327 to R345). -/
structure XGroup where
  st : Nat
  sig : Nat
  lock : Nat
  eqd : Nat
  map : List Nat
  w : Nat
  marks : Nat
  markMap : List Nat
  /-- LANES and READY of the last TRAIN block received, and the consecutive blocks that agree in width (R331). -/
  peer : Nat
  agree : Nat
  txSeq : Nat
  rxSeq : Nat
  retry : List Retry
  /-- CONTROL messages that wait, oldest first (R338). -/
  ctl : List (List Byte)
  replays : Nat
  /-- The SEQ that the last NAK named, with its instant (R334). -/
  nak : Option (Nat × Nat)
  rx : List (Nat × RxChan)
  tx : List (Nat × TxChan)
  tpl : List (Nat × Tpl)
  /-- SEQ of the next key request that the device sends here (R62, R186). -/
  keySeq : Nat
  deriving DecidableEq, Repr

def XGroup.fresh : XGroup :=
  ⟨0, 0, 0, 0, List.replicate 4 15, 1, 0, [], 0, 0, 0, 0, [], [], 0, none, [], [], [], 0⟩

/-! ### Codec engines (R136 to R167) -/

/-- The values of COD_C_RC, COD_C_RATE, COD_C_VBV and COD_C_QP in force when a picture was taken, by which it is coded (R151). -/
structure RcVals where
  rc : Word
  rate : Word
  vbv : Word
  qp : Word
  deriving DecidableEq, Repr

/-- A source picture that an encode context has taken: tick, frame buffer, the context's ticks until it, its picture order count,
whether it is a key picture and whether it answers a request, its time address and whether a gap precedes it, its lookahead
cost, its rate control, and the pictures skipped right after it while it stands in the lookahead (R146, R147, R157, R163). -/
structure Taken where
  tick : Nat
  fb : Option Nat
  ticks : Nat
  poc : Nat
  key : Bool
  asked : Bool
  tc : Option Word
  gap : Bool
  cost : Nat
  rcv : RcVals
  after : Nat
  deriving DecidableEq, Repr

/-- The time code SEI of a picture (R163): counting_type, discontinuity_flag, cnt_dropped_flag, n_frames, seconds_value,
minutes_value and hours_value; num_clock_ts and full_timestamp_flag are 1, units_field_based_flag and time_offset_length 0. -/
structure TcSei where
  counting : Nat
  discontinuity : Bool
  dropped : Bool
  frames : Nat
  seconds : Nat
  minutes : Nat
  hours : Nat
  deriving DecidableEq, Repr

/-- What the headers and SEI units of a picture say (R138, R162, R163): the IRAP picture's parameter sets, led by an access unit
delimiter, with num_units_in_tick and time_scale of the VUI; bit rate and CPB size of hrd_parameters with their buffering period
and picture timing SEI; the picture order count; the time code SEI; the hash SEI; chroma format and bit depth. -/
structure PicHdr where
  irap : Bool
  aud : Bool
  units : Nat
  scale : Nat
  hrd : Option (Nat × Nat)
  poc : Nat
  tc : Option TcSei
  hash : Bool
  chroma : Nat
  depth : Nat
  deriving DecidableEq, Repr

/-- A reference picture of an encode context (R143, R146, R150): its order count and type, whether it is an IRAP picture, and the
planes that its engines have written. -/
structure RefPic where
  poc : Nat
  type : Nat
  irap : Bool
  planes : List (List (List Nat))
  deriving DecidableEq, Repr

/-- A picture in coding order: type 0 I, 1 P, 2 B, its level in the hierarchy, and whether it is an IDR picture. -/
structure CodPic where
  src : Taken
  type : Nat
  level : Nat
  idr : Bool
  deriving DecidableEq, Repr

/-- The picture that an engine codes for a context (R152 to R156). -/
structure CWork where
  pic : CodPic
  /-- The budget T, or its share for a tile of a split stream. -/
  budget : Nat
  row : Nat
  used : Nat
  qps : List Nat
  base : Nat
  capped : Nat
  /-- TAIL of the output queue at the picture's first slice. -/
  clasp : Nat
  slices : Nat
  /-- Both strands of a slice of the whole picture (R164 mode 1): NAL data, reconstruction and CTUs capped of the rows so far. -/
  acc : List Byte
  acc2 : List Byte
  recon2 : List (List (List Nat))
  capped2 : Nat
  /-- The reconstruction of the kept rows (R156). -/
  recon : List (List (List Nat))
  /-- The source of the CTU row coded last, as converted (R142); a lost sample is none. -/
  src : List (List (List (Option Nat)))
  /-- Slices of tile 1 that wait for the end of tile 0, with whether each is the tile's last (R165). -/
  hold : List (SliceOut × Bool)
  /-- Order counts of the pictures that it may refer to (R146, R148), and its headers. -/
  refs : List Nat
  hdr : PicHdr
  deriving DecidableEq, Repr

/-- A picture of the decoded picture buffer, kept for concealment and references (R181 to R183): its coded video sequence and
order count, its cropped planes and its taint. -/
structure DPic where
  epoch : Nat
  poc : Int
  planes : List (List (List Nat))
  taint : Bool
  deriving DecidableEq, Repr

/-- The open access unit of a decode context (R173): NAL units kept, slices among them, slices skipped, whether one is of an
IRAP picture, the stream tick of its first NAL unit, and whether its picture has been abandoned (R185). -/
structure AuOpen where
  n : Nat
  slices : Nat
  skipped : Nat
  irap : Bool
  first : Nat
  drop : Bool
  deriving DecidableEq, Repr

/-- A closed access unit that waits for decoding: its NAL units, the slice segments received, and whether it is of an IRAP
picture. -/
structure AuDone where
  n : Nat
  slices : Nat
  irap : Bool
  deriving DecidableEq, Repr

/-- A decoded picture with what its descriptor says of it (R189), and its buffer in the output ring. -/
structure OutPic where
  fmt : Nat
  depth : Nat
  cfa : Nat
  w : Nat
  h : Nat
  flags : Nat
  number : Nat
  poc : Int
  cdepth : Nat
  tc : Word
  map : List Bool
  missing : Nat
  degraded : Nat
  planes : List (List (List Nat))
  buf : Nat
  /-- H.265: the coded video sequence it is of. -/
  epoch : Nat
  /-- Facet: the decoded blocks with MISSING = 1, by block row and block (R102, R175). -/
  gaps : List (Nat × Nat)
  deriving DecidableEq, Repr

/-- A playback stream's output (R187): the output list, the last output picture, the stream ticks until the last output (R168), and
the buffers whose packets are being enqueued. -/
structure OutRing where
  list : List OutPic
  last : Option OutPic
  at_ : Nat
  sent : List Nat
  deriving DecidableEq, Repr

def OutRing.fresh : OutRing := ⟨[], none, 0, []⟩

/-- One stream context (R143). -/
structure Ctx where
  ticks : Nat
  /-- Assigned engine, as moved; parked under R161. -/
  engine : Nat
  parked : Bool
  started : Bool
  /-- A key request waits for the next tick; the next picture taken answers one (R147). -/
  keyAsked : Bool
  keyDue : Bool
  /-- The next picture must be an IDR picture (R160, R161). -/
  idrNext : Bool
  taken : Nat
  /-- Ticks at the last IDR picture. -/
  idrTick : Nat
  gap : Bool
  tc : Word
  /-- Pictures in the lookahead, in the mini-GOP and in coding order, and the pictures skipped in the mini-GOP (R146, R157). -/
  look : List Taken
  gop : List Taken
  gopSkips : Nat
  code : List CodPic
  /-- Pictures that later ones may refer to, in coding order (R143, R146). -/
  refs : List RefPic
  debt : Int
  meanQp : Option Nat
  picNum : Nat
  /-- Pictures in progress, by engine; those of a split stream by tile. -/
  work : List (Nat × CWork)
  /-- LIVE CTU rows that are ready, of the picture in progress and of the next one (R32). -/
  rows : Nat
  rowsNext : Nat
  /-- Decode: the open access unit, and the closed units that wait for decoding. -/
  au : Option AuOpen
  closed : List AuDone
  /-- Coded video sequences begun. -/
  epoch : Nat
  dpb : List DPic
  /-- Decoded pictures that ITU-T H.265's output process still holds. -/
  held : List OutPic
  waitIrap : Bool
  taint : Bool
  reqNext : Bool
  /-- Ticks since the last key request of an episode. -/
  episode : Option Nat
  /-- The output buffer of the picture that is being decoded. -/
  decoding : Option Nat
  ring : OutRing
  /-- The tick at which the placement loop moved it last, and the engine it goes to at its next picture boundary (R436). -/
  moved : Option Nat
  goTo : Option Nat
  /-- A moved split stream, whose engine codes both tiles (R161). -/
  both : Bool
  deriving DecidableEq, Repr

def Ctx.fresh : Ctx :=
  ⟨0, 0, false, false, false, false, false, 0, 0, false, 0, [], [], 0, [], [], 0, none, 0, [], 0, 0, none, [], 0, [], [], true,
    false, false, none, none, .fresh, none, none, false⟩

/-- What one half of an engine's window cache holds (R148, R149): the context, the order counts of its references, the CTU row, and
the 64-wide columns, those left of the picture below 0. -/
structure Window64 where
  ctx : Nat
  refs : List Nat
  row : Nat
  cols : List Int
  deriving DecidableEq, Repr

/-- One codec engine. -/
structure CEngine where
  /-- 1 in service, 4 SELFTEST, 5 RETIRED. -/
  st : Nat
  cur : Option Nat
  aside : Option Nat
  /-- Contexts with a picture that is ready. -/
  ready : List Nat
  /-- The context served last of each class. -/
  served : List Nat
  /-- The context of the last switch (R144). -/
  last : Option Nat
  /-- Busy time in ns in the present tick interval, and COD_LOAD of the last 8 intervals, newest first (R436). -/
  busy : Nat
  hist : List Nat
  /-- The stream buffer (R66): rows that Landing has streamed, by row, with their samples in link order. -/
  buf : List (Nat × List (Option Nat))
  /-- LIVE contexts whose state the second bank holds (R158, R160). -/
  bank : List Nat
  /-- The window cache of the LIVE context and of the others (R148). -/
  winLive : Option Window64
  winOther : Option Window64
  deriving DecidableEq, Repr

def CEngine.fresh : CEngine := ⟨1, none, none, [], [63, 63, 63], none, 0, [], [], [], none, none⟩

structure Cod where
  ctx : List (Nat × Ctx)
  eng : List (Nat × CEngine)
  /-- The engine reserved now. -/
  rsv : Nat
  /-- Engines retired in the present tick interval, and engines repaired. -/
  pend : List Nat
  back : List Nat
  deriving DecidableEq, Repr

/-! ### Facet playback (R168 to R193) -/

/-- A picture in staging (R172): its ordinal, its number, its buffer, the byte ranges present and unreadable, the stream tick of
its first part, and the bands that an engine decodes. -/
structure Stg where
  ord : Nat
  number : Nat
  buf : Nat
  have_ : List (Nat × Nat)
  bad : List (Nat × Nat)
  first : Nat
  closed : Bool
  out : Option Nat
  bands : List Nat
  deriving DecidableEq, Repr

structure PStream where
  ticks : Nat
  opened : Nat
  stg : List Stg
  /-- Numbers of the pictures closed last, whose later parts are discarded. -/
  closed : List Nat
  ring : OutRing
  deriving DecidableEq, Repr

def PStream.fresh : PStream := ⟨0, 0, [], [], .fresh⟩

/-! ### Network time (R346 to R348) -/

/-- A foreign time-transmitter: its clock and port, its datasets, and the local instant of its last Announce. -/
structure Foreign where
  src : Nat
  port : Nat
  gm : GmData
  last : Nat
  deriving DecidableEq, Repr

structure Ptp where
  /-- PTP time in ns at a local instant, and the frequency offset from there in 1/65,536 ppm. -/
  base : Nat
  at_ : Nat
  freq : Int
  /-- PTP_STAT.STATE. -/
  st : Nat
  foreign : List Foreign
  /-- The time-transmitter selected, by clock and port. -/
  master : Option (Nat × Nat)
  /-- A two-step Sync that waits for its Follow_Up: sequence ID, PTP time of its arrival, correction. -/
  sync : Option (Nat × Nat × Int)
  /-- The last Sync used: its time and arrival. -/
  t1 : Nat
  t2 : Nat
  /-- The delay request in flight: sequence ID and PTP time sent; the next sequence ID; a two-step peer response. -/
  req : Option (Nat × Nat)
  nextSeq : Nat
  resp : Option (Nat × Int)
  mpd : Int
  /-- The servo: sum of offsets, and consecutive Syncs within LOCK_TH. -/
  sum : Int
  good : Nat
  /-- Seconds latched by a read of PTP_TIME_NS. -/
  secs : Nat
  /-- PTP time at the last 64 ticks, newest first (R343). -/
  latches : List (Nat × Nat)
  deriving DecidableEq, Repr

def Ptp.fresh : Ptp := ⟨0, 0, 0, 0, [], none, none, 0, 0, none, 0, none, 0, 0, 0, 0, []⟩

/-! ### The egress scheduler (R299 to R326) -/

/-- One port: virtual time and greatest finish tag of each class, the instant the wire is free, the class on the wire, the
queue committed for the next unit, and the gate list in force with its pending swap (R303 to R317), times in ns. -/
structure SPort where
  v : List Nat
  fmax : List Nat
  free : Nat
  cls : Nat
  commit : Option Nat
  operBase : Nat
  operCycle : Nat
  operLen : Nat
  swap : Option Nat
  deriving DecidableEq, Repr

def SPort.fresh : SPort := ⟨[0, 0, 0], [0, 0, 0], 0, 3, none, 0, 0, 0, none⟩

/-- One egress queue: start and finish tags, whether it is backlogged, its balance in 1/65,536 byte at an instant, the slot
boundary that it waits for, the packet in progress (its start and the bytes and units sent of it), the instant since which
it is eligible, and the packet whose unit a guard band has held back. -/
structure SQueue where
  s : Nat
  f : Nat
  back : Bool
  bal : Int
  balAt : Nat
  wheel : Option Nat
  cur : Option (Nat × Nat × Nat)
  since : Option Nat
  held : Option (Nat × Nat)
  deriving DecidableEq, Repr

def SQueue.fresh : SQueue := ⟨0, 0, false, 0, 0, none, none, none, none⟩

structure Sch where
  ports : List (Nat × SPort)
  queues : List (Nat × SQueue)
  deriving DecidableEq, Repr

/-! ### Memory controllers (R263 to R298) -/

/-- A burst in a channel's queue: its port, its 32-byte unit, the bytes of the unit that it reads or writes, and the instant
of its arrival. -/
structure DReq where
  port : Nat
  unit : Nat
  cover : List Nat
  arr : Nat
  deriving DecidableEq, Repr

/-- One memory channel. -/
structure DChan where
  /-- Trained and in service; out of service under R294; in power-down; in self-refresh. -/
  up : Bool
  out : Bool
  pd : Bool
  sr : Bool
  /-- The refresh rate of R282 and the refreshes owed. -/
  rate : Nat
  owed : Nat
  reads : List DReq
  writes : List DReq
  /-- Bursts that find their queue full, as (is a write, burst), and the round-robin pointer of R277. -/
  wait : List (Bool × DReq)
  rr : Nat
  /-- Write batches go on until 16 entries are left (R280). -/
  drain : Bool
  /-- Corrected errors by row, and rows held as repair candidates, in the layout of DMC_CH_LAST_ERR (R293). -/
  corr : List (Nat × Nat)
  cand : List Nat
  /-- The scrubber's place among the channel's protected blocks (R273). -/
  scrub : Nat
  deriving DecidableEq, Repr

def DChan.fresh : DChan := ⟨false, false, false, false, 0, 0, [], [], [], 0, false, [], [], 0⟩

/-- One controller's retirement: DMC_STAT.RSTATE, RCH and the progress pointer (R294). -/
structure DCtl where
  rstate : Nat
  rch : Nat
  ptr : Nat
  deriving DecidableEq, Repr

def DCtl.fresh : DCtl := ⟨0, 0, 0⟩

/-! ### DMA (R353 to R369) -/

/-- The result of a descriptor (R358). -/
structure DRes where
  code : Nat
  valid : Bool
  poisoned : Bool
  check : Word
  bytes : Word
  deriving DecidableEq, Repr

/-- One channel: HEAD and TAIL; the descriptor in progress; its result, the destination queue with the start of its packet, and
the source queue with the end of its packet, once its data has moved; HALTED with its code; SHD_PEND; BUSY after a drop; and the bytes that its beats have moved (R354). -/
structure DmaChan where
  head : Nat
  tail : Nat
  cur : Option (List Word)
  moved : Option (DRes × Option (Nat × Nat) × Option (Nat × Nat))
  halted : Bool
  code : Nat
  shd : Bool
  drop : Bool
  pos : Nat
  deriving DecidableEq, Repr

def DmaChan.fresh : DmaChan := ⟨0, 0, none, none, false, 0, false, false, 0⟩

/-- The arbitration of beats (R354): of each priority the channel that holds the engine, with the bytes it has moved in its burst;
the round-robin pointer; the channel of the last beat; and the channels that competed in the last cycle. -/
structure DmaArb where
  hold : List (Nat × (Nat × Nat))
  ptr : Nat
  last : Option Nat
  asked : List Nat
  deriving DecidableEq, Repr

def DmaArb.fresh : DmaArb := ⟨[], 0, none, []⟩

/-! ### The frame sequencer (R195 to R224) -/

/-- What a suspended list waits for: an event, a SLEEP's time, or a fence (R210, R212): 0 FENCE_WR, 1 FENCE_RW,
3 FENCE_HOST. -/
inductive Susp
  | event (ev : Nat)
  | sleep
  | fence (kind : Nat)
  deriving DecidableEq, Repr

/-- Until when it waits: an instant in ns, or a number of the list's own ticks. -/
inductive Until
  | at_ (ns : Nat)
  | ticks (n : Nat)
  deriving DecidableEq, Repr

/-- One step list (R202). -/
structure SList where
  /-- 0 IDLE, 1 READY, 2 RUN, 3 WAIT, 4 DONE, 5 HALTED. -/
  st : Nat
  /-- G0 to G15. -/
  g : List Word
  z : Bool
  n : Bool
  c : Bool
  t : Bool
  fail : Bool
  /-- The return stack, the entry pushed last first. -/
  stack : List Nat
  pc : Nat
  /-- The step entry, and whether its first run is still to come, for which its TRIG must be sampled. -/
  step : Nat
  enter : Bool
  susp : Option (Susp × Until)
  /-- The wait is resolved: its T. -/
  past : Option Bool
  owed : Nat
  /-- Cycles in the present interval, and whether BUDGET_OVER was raised for it. -/
  used : Nat
  late : Bool
  /-- The picture Clasp: queue and position (R204, R217). -/
  clasp : Option (Nat × Nat)
  /-- The abandon step runs (R217). -/
  abort : Bool
  deriving DecidableEq, Repr

def SList.fresh : SList :=
  ⟨0, List.replicate 16 0, false, false, false, false, false, [], 0, 0, false, none, none, 0, 0, false, none, false⟩

structure Sequencer where
  lists : List (Nat × SList)
  /-- The list whose step run is under way, and the run's cycles. -/
  cur : Option Nat
  run : Nat
  /-- The list last served of each class. -/
  served : List Nat
  /-- Busy cycles since the last tick taken, and its instant. -/
  busy : Nat
  since : Nat
  /-- The first tick has been taken. -/
  started : Bool
  /-- Enable changes that a tick's boundary makes (R213 step 5), and event lines that the next boundary clears (R211). -/
  enables : List (Nat × Bool)
  clear : List Nat
  /-- Lists that an illegal microword or TRIG has halted, whose streams stop at the next tick (R206). -/
  stops : List Nat
  deriving DecidableEq, Repr

def Sequencer.fresh : Sequencer := ⟨[], none, 0, [127, 127, 127], 0, 0, false, [], [], []⟩

/-! ### Boot and the flash (R398 to R422) -/

/-- A flash operation: the host's (0 READ, 1 PROGRAM, 2 ERASE_4K, 3 ERASE_64K), an entry of the repair log, or a patch that a
window submitted (R410, R411, R420). -/
inductive FlOp
  | host (op addr len : Nat) (data : List Byte)
  | log (entry : List Byte)
  | patch (w addr : Nat) (data : List Byte)
  deriving DecidableEq, Repr

structure Boot where
  /-- BOOT_STAT.STAGE (R400). -/
  stage : Nat
  /-- BOOT_STAT.IMAGE: 0 A, 1 B, 2 none. -/
  image : Nat
  dirCopy : Nat
  /-- Boot has completed (R417). -/
  done : Bool
  /-- A monitored supply holds the device in reset (R472). -/
  held : Bool
  /-- Slots that the present boot has tried. -/
  tried : List Nat
  /-- The index of the next record, whether a PATCH record has come, the START record, and UCODE_VER of the image. -/
  rec_ : Nat
  patched : Bool
  start : Option (List StartStep × StartEnv)
  ucode : Nat
  /-- The repair log, and the running image's patch area with the end of its stored patches (R401, R411). -/
  logOff : Nat
  logLen : Nat
  paOff : Nat
  paLen : Nat
  paEnd : Nat
  /-- Microseconds of this boot that start steps have waited. -/
  us : Nat
  /-- Repair entries in effect, the image's and then the log's (R409, R410). -/
  repairs : List RepairEntry
  deriving DecidableEq, Repr

def Boot.fresh : Boot := ⟨0, 2, 0, false, false, [], 0, false, none, 0, 0, 0, 0, 0, 0, 0, []⟩

/-- What the device sends to the world outside. -/
inductive Msg
  /-- An MSI-X message (R391). -/
  | msix (addr : Nat) (data : Word)
  /-- A Ferry packet of a Crossing group: TYPE, SEQ, CH, FIRST, LAST, POISON and the payload (R330, R332). -/
  | ferry (g type seq ch : Nat) (first last poison : Bool) (payload : List Byte)
  /-- ACK, NAK, CREDIT and TRAIN blocks of a Crossing group (R330). -/
  | ferryAck (g seq : Nat)
  | ferryNak (g seq : Nat)
  | ferryCredit (g ch limit : Nat)
  | ferryTrain (g lanes : Nat) (ready : Bool) (rxSeq : Nat)
  /-- A frame of an Ethernet port, from its destination MAC to the end of its payload (R343). -/
  | eth (port : Nat) (frame : List Byte)
  /-- A Delay_Req or Pdelay_Req of the time unit, or its answer to a Pdelay_Req: message type, sequence ID, PTP time in ns (R347). -/
  | ptp (type seq time : Nat)
  /-- A VDD_CORE target in mV written over AVSBus (R435). -/
  | avs (mv : Nat)
  /-- A memory read or write of the host, with No Snoop and Relaxed Ordering (R363, R368). -/
  | hostRead (addr len : Nat) (noSnoop : Bool)
  | hostWrite (addr : Nat) (bytes : List Byte) (noSnoop relaxed : Bool)
  deriving DecidableEq, Repr

structure State where
  fuse : Fuse
  /-- Last values written or latched, by BAR0 offset, rising, no value equal to the reset value. -/
  regs : List (Nat × Word)
  /-- The RWT values in force (R12), in the same form. -/
  force : List (Nat × Word)
  /-- Holding registers of _LO/_HI pairs (R11), keyed by 4 times the offset of the pair's LO half and interface. -/
  holdR : List (Nat × Word)
  holdW : List (Nat × Word)
  /-- Time-code load registers written since the last tick (R111). -/
  loads : List Nat
  /-- External levels of GPIO[7:0] (R497). -/
  gpio : BitVec 8
  clk : Clk
  /-- Domains 0 to 21 that are not simply ON (R423). -/
  dom : List (Nat × Domain)
  /-- Occurrence counts of the sequencer's event lines (R208). -/
  evts : List (Nat × Nat)
  thm : Thm
  flt : Flt
  ic : Ic
  win : List (Nat × Window)
  pll : Plls
  seq : Sequencer
  boot : Boot
  /-- The flash; an unlisted byte reads 0xFF (log 7). -/
  flash : List Host.Cell
  /-- Flash operations, the one in progress first. -/
  flops : List FlOp
  /-- DRAM by device address; an unlisted byte reads 0 (log 6). -/
  dram : List Host.Cell
  dch : List (Nat × DChan)
  dctl : List (Nat × DCtl)
  /-- Queues that differ from a fresh one. -/
  qf : List (Nat × Queue)
  pools : List (Nat × Pool)
  lnd : List (Nat × LGroup)
  /-- Of each Landing lane, keyed by 8 times its group and lane, which of its last 64 blocks had an invalid sync header, the latest
  at bit 0 (R46). -/
  hdrs : List (Nat × BitVec 64)
  xcv : List (Nat × XGroup)
  fct : Fct
  cod : Cod
  play : List (Nat × PStream)
  sch : Sch
  ptp : Ptp
  dma : List (Nat × DmaChan)
  dmaArb : DmaArb
  /-- The address of the last device write to host memory that no FENCE_HOST has confirmed (R38). -/
  hostOpen : Option Nat
  /-- The answer each pool requester last received: its code and the handle granted (R256). The fabric's own, requester 0's, stands
  here until a drain uses it (R237). -/
  answers : List (Nat × (Nat × Word))
  /-- The words that the last read over each interface returned: 0 PCIe, 1 management SPI, 2 sequencer; 3 the queue fabric's last
  answer, its code and value. -/
  rd : List (Nat × List Word)
  /-- Everything sent, oldest first. -/
  sent : List Msg
  /-- Values of `Config.freeByte` and `Config.freeWord` used so far: the model's own field. -/
  freeCtr : Nat
  /-- The commands that wait, oldest first. -/
  pending : List Instr
  deriving DecidableEq, Repr

def Flt.fresh : Flt := ⟨[], 0, false, false, none, none, [], 0, [], [], false, [], 0⟩

def Clk.fresh : Clk := ⟨0, none, none, 0, none, false, [], 0⟩

/-- The Facet engines after reset on either grade: A engines in the slots and the last one the spare (R105, R131). -/
def Fct.fresh (m : Bool) : Fct :=
  if m then ⟨[], [(2, { FEngine.fresh with st := 4 })], [0, 1], []⟩
  else ⟨[], [(4, { FEngine.fresh with st := 4 })], [0, 1, 2, 3], []⟩

/-- The fuses of State.reset: a TPV-9X of the standard temperature grade, with no vendor ID, a key hash of zeros, no injection
fuse and the TEST_MODE strap low (log 3). -/
def Fuse.std : Fuse := ⟨false, false, 0, List.replicate 48 0, false, false⟩

/-- The machine right after reset (R398, R400): every register at its reset value, every domain ON, stage RESET, nothing in
memory, and no command waiting. -/
def State.reset : State where
  fuse := Fuse.std
  regs := []
  force := []
  holdR := []
  holdW := []
  loads := []
  gpio := 0
  clk := Clk.fresh
  dom := []
  evts := []
  thm := Thm.fresh
  flt := Flt.fresh
  ic := ⟨[], 0⟩
  win := []
  pll := Plls.fresh
  seq := Sequencer.fresh
  boot := Boot.fresh
  flash := []
  flops := []
  dram := []
  dch := []
  dctl := []
  qf := []
  pools := []
  lnd := []
  hdrs := []
  xcv := []
  fct := Fct.fresh false
  cod := ⟨[], [], 0, [], []⟩
  play := []
  sch := ⟨[], []⟩
  ptp := Ptp.fresh
  dma := []
  dmaArb := DmaArb.fresh
  hostOpen := none
  answers := []
  rd := []
  sent := []
  freeCtr := 0
  pending := []

end Sys2Proof.Machine
end

