-- ==== Sys2Proof/Machine/RegMap.lean ====
section
/-! DEFINITION. The register map of BAR0 (R14): the address of every register of the chapters' tables under the manual's
own name, and for every address its access code (R8), reset value and non-reserved bits (R10). -/

namespace Sys2Proof.Machine

def Adr.GLB_ID : Nat := 0x0
def Adr.GLB_GRADE : Nat := 0x4
def Adr.GLB_UNITS : Nat := 0x8
def Adr.GLB_TICK_CTL : Nat := 0x10
def Adr.GLB_TICK_RATE : Nat := 0x14
def Adr.GLB_TICK_CNT_LO : Nat := 0x18
def Adr.GLB_TICK_CNT_HI : Nat := 0x1c
def Adr.GLB_TICK_STAT : Nat := 0x20
def Adr.GLB_TICK_EARLY : Nat := 0x24
def Adr.GLB_TICK_MISSED : Nat := 0x28
def Adr.GLB_OVR_CNT : Nat := 0x2c
def Adr.GLB_ORDER : Nat := 0x30
def Adr.LND_CTL (i : Nat) : Nat := 0x600000 + 0x20000 * i
def Adr.LND_GEOM (i : Nat) : Nat := 0x600004 + 0x20000 * i
def Adr.LND_FMT (i : Nat) : Nat := 0x600008 + 0x20000 * i
def Adr.LND_POL (i : Nat) : Nat := 0x60000c + 0x20000 * i
def Adr.LND_EQ_CTL (i : Nat) : Nat := 0x600010 + 0x20000 * i
def Adr.LND_EQ_STAT (i : Nat) : Nat := 0x600014 + 0x20000 * i
def Adr.LND_STAT (i : Nat) : Nat := 0x600018 + 0x20000 * i
def Adr.LND_LANE_MAP (i : Nat) : Nat := 0x60001c + 0x20000 * i
def Adr.LND_SKEW_LO (i : Nat) : Nat := 0x600020 + 0x20000 * i
def Adr.LND_SKEW_HI (i : Nat) : Nat := 0x600024 + 0x20000 * i
def Adr.LND_EVT (i : Nat) : Nat := 0x600028 + 0x20000 * i
def Adr.LND_EVT_EN (i : Nat) : Nat := 0x60002c + 0x20000 * i
def Adr.LND_CASKET (i : Nat) : Nat := 0x600030 + 0x20000 * i
def Adr.LND_OVF_BASE_LO (i : Nat) : Nat := 0x600034 + 0x20000 * i
def Adr.LND_OVF_BASE_HI (i : Nat) : Nat := 0x600038 + 0x20000 * i
def Adr.LND_OVF_SIZE (i : Nat) : Nat := 0x60003c + 0x20000 * i
def Adr.LND_FB_BASE_LO (i : Nat) : Nat := 0x600040 + 0x20000 * i
def Adr.LND_FB_BASE_HI (i : Nat) : Nat := 0x600044 + 0x20000 * i
def Adr.LND_FB_PITCH (i : Nat) : Nat := 0x600048 + 0x20000 * i
def Adr.LND_FB_CTL (i : Nat) : Nat := 0x60004c + 0x20000 * i
def Adr.LND_BC_CTL (i : Nat) : Nat := 0x600050 + 0x20000 * i
def Adr.LND_CNT_REBUILT (i : Nat) : Nat := 0x600060 + 0x20000 * i
def Adr.LND_CNT_PARERR (i : Nat) : Nat := 0x600064 + 0x20000 * i
def Adr.LND_CNT_CTLERR (i : Nat) : Nat := 0x600068 + 0x20000 * i
def Adr.LND_CNT_CLIP (i : Nat) : Nat := 0x60006c + 0x20000 * i
def Adr.LND_CNT_DROP (i : Nat) : Nat := 0x600070 + 0x20000 * i
def Adr.LND_CNT_LOCKLOSS (i : Nat) : Nat := 0x600074 + 0x20000 * i
def Adr.LND_CNT_DAMAGED (i : Nat) : Nat := 0x600078 + 0x20000 * i
def Adr.FCT_STAT (i : Nat) : Nat := 0x800000 + 0x100000 * i
def Adr.FCT_LQ_BASE (i : Nat) : Nat := 0x800004 + 0x100000 * i
def Adr.FCT_WINDOW (i : Nat) : Nat := 0x800008 + 0x100000 * i
def Adr.FCT_REPLAY_LEFT (i : Nat) : Nat := 0x80000c + 0x100000 * i
def Adr.FCT_CNT_ROWS (i : Nat) : Nat := 0x800010 + 0x100000 * i
def Adr.FCT_CNT_STALE (i : Nat) : Nat := 0x800014 + 0x100000 * i
def Adr.FCT_CNT_COARSE (i : Nat) : Nat := 0x800018 + 0x100000 * i
def Adr.FCT_CNT_FALLBACK (i : Nat) : Nat := 0x80001c + 0x100000 * i
def Adr.FCT_CNT_VERB (i : Nat) : Nat := 0x800020 + 0x100000 * i
def Adr.FCT_CNT_XFRM (i : Nat) : Nat := 0x800024 + 0x100000 * i
def Adr.FCT_CNT_STALL (i : Nat) : Nat := 0x800028 + 0x100000 * i
def Adr.FCT_EVT (i : Nat) : Nat := 0x80002c + 0x100000 * i
def Adr.FCT_EVT_EN (i : Nat) : Nat := 0x800030 + 0x100000 * i
def Adr.FCT_GLB_CTL : Nat := 0x808000
def Adr.FCT_SLOTS : Nat := 0x808004
def Adr.FCT_S_CTL (i : Nat) : Nat := 0x808100 + 0x40 * i
def Adr.FCT_S_CFA (i : Nat) : Nat := 0x808104 + 0x40 * i
def Adr.FCT_S_SLOT (i : Nat) : Nat := 0x808108 + 0x40 * i
def Adr.FCT_S_NT0 (i : Nat) : Nat := 0x80810c + 0x40 * i
def Adr.FCT_S_NT1 (i : Nat) : Nat := 0x808110 + 0x40 * i
def Adr.FCT_S_NT2 (i : Nat) : Nat := 0x808114 + 0x40 * i
def Adr.FCT_S_NT3 (i : Nat) : Nat := 0x808118 + 0x40 * i
def Adr.FCT_S_RC (i : Nat) : Nat := 0x80811c + 0x40 * i
def Adr.FCT_S_RQ (i : Nat) : Nat := 0x808120 + 0x40 * i
def Adr.FCT_S_TC_CTL (i : Nat) : Nat := 0x808124 + 0x40 * i
def Adr.FCT_S_TC_LOAD (i : Nat) : Nat := 0x808128 + 0x40 * i
def Adr.FCT_S_STAT (i : Nat) : Nat := 0x80812c + 0x40 * i
def Adr.FCT_S_PICTURE (i : Nat) : Nat := 0x808130 + 0x40 * i
def Adr.FCT_S_CNT_PIC (i : Nat) : Nat := 0x808134 + 0x40 * i
def Adr.FCT_S_CNT_GAP (i : Nat) : Nat := 0x808138 + 0x40 * i
def Adr.FCT_S_RATE (i : Nat) : Nat := 0x80813c + 0x40 * i
def Adr.COD_STAT (i : Nat) : Nat := 0xd00000 + 0x100000 * i
def Adr.COD_LOAD (i : Nat) : Nat := 0xd00004 + 0x100000 * i
def Adr.COD_CNT_PIC (i : Nat) : Nat := 0xd00010 + 0x100000 * i
def Adr.COD_CNT_SWITCH (i : Nat) : Nat := 0xd00014 + 0x100000 * i
def Adr.COD_CNT_PREEMPT (i : Nat) : Nat := 0xd00018 + 0x100000 * i
def Adr.COD_CNT_CAPPED (i : Nat) : Nat := 0xd0001c + 0x100000 * i
def Adr.COD_CNT_COARSE (i : Nat) : Nat := 0xd00020 + 0x100000 * i
def Adr.COD_CNT_SKIP (i : Nat) : Nat := 0xd00024 + 0x100000 * i
def Adr.COD_CNT_LOADSTALL (i : Nat) : Nat := 0xd00028 + 0x100000 * i
def Adr.COD_EVT (i : Nat) : Nat := 0xd0002c + 0x100000 * i
def Adr.COD_EVT_EN (i : Nat) : Nat := 0xd00030 + 0x100000 * i
def Adr.COD_GLB_CTL : Nat := 0xd08000
def Adr.COD_GLB_STAT : Nat := 0xd08004
def Adr.COD_C_CTL (i : Nat) : Nat := 0xd08100 + 0x40 * i
def Adr.COD_C_GEOM (i : Nat) : Nat := 0xd08104 + 0x40 * i
def Adr.COD_C_FMT (i : Nat) : Nat := 0xd08108 + 0x40 * i
def Adr.COD_C_GOP (i : Nat) : Nat := 0xd0810c + 0x40 * i
def Adr.COD_C_RC (i : Nat) : Nat := 0xd08110 + 0x40 * i
def Adr.COD_C_RATE (i : Nat) : Nat := 0xd08114 + 0x40 * i
def Adr.COD_C_VBV (i : Nat) : Nat := 0xd08118 + 0x40 * i
def Adr.COD_C_QP (i : Nat) : Nat := 0xd0811c + 0x40 * i
def Adr.COD_C_SLICE (i : Nat) : Nat := 0xd08120 + 0x40 * i
def Adr.COD_C_IO (i : Nat) : Nat := 0xd08124 + 0x40 * i
def Adr.COD_C_REF_LO (i : Nat) : Nat := 0xd08128 + 0x40 * i
def Adr.COD_C_REF_HI (i : Nat) : Nat := 0xd0812c + 0x40 * i
def Adr.COD_C_SEI (i : Nat) : Nat := 0xd08130 + 0x40 * i
def Adr.COD_C_TC_LOAD (i : Nat) : Nat := 0xd08134 + 0x40 * i
def Adr.COD_C_STAT (i : Nat) : Nat := 0xd08138 + 0x40 * i
def Adr.COD_C_PICTURE (i : Nat) : Nat := 0xd0813c + 0x40 * i
def Adr.FCT_P_EVT : Nat := 0x809000
def Adr.FCT_P_EVT_EN : Nat := 0x809004
def Adr.FCT_P_EVT_STR : Nat := 0x809008
def Adr.FCT_P_CTL (i : Nat) : Nat := 0x809100 + 0x40 * i
def Adr.FCT_P_GEOM (i : Nat) : Nat := 0x809104 + 0x40 * i
def Adr.FCT_P_IO (i : Nat) : Nat := 0x809108 + 0x40 * i
def Adr.FCT_P_STG_LO (i : Nat) : Nat := 0x80910c + 0x40 * i
def Adr.FCT_P_STG_HI (i : Nat) : Nat := 0x809110 + 0x40 * i
def Adr.FCT_P_STG_CTL (i : Nat) : Nat := 0x809114 + 0x40 * i
def Adr.FCT_P_OUT_LO (i : Nat) : Nat := 0x809118 + 0x40 * i
def Adr.FCT_P_OUT_HI (i : Nat) : Nat := 0x80911c + 0x40 * i
def Adr.FCT_P_OUT_CTL (i : Nat) : Nat := 0x809120 + 0x40 * i
def Adr.FCT_P_STAT (i : Nat) : Nat := 0x809124 + 0x40 * i
def Adr.FCT_P_PICTURE (i : Nat) : Nat := 0x809128 + 0x40 * i
def Adr.FCT_P_CNT_PIC (i : Nat) : Nat := 0x80912c + 0x40 * i
def Adr.FCT_P_CNT_CONCEAL (i : Nat) : Nat := 0x809130 + 0x40 * i
def Adr.FCT_P_CNT_LATE (i : Nat) : Nat := 0x809134 + 0x40 * i
def Adr.FCT_P_CNT_DISCARD (i : Nat) : Nat := 0x809138 + 0x40 * i
def Adr.FCT_P_CNT_FULL (i : Nat) : Nat := 0x80913c + 0x40 * i
def Adr.COD_D_EVT : Nat := 0xd09100
def Adr.COD_D_EVT_EN : Nat := 0xd09104
def Adr.COD_D_EVT_CTX : Nat := 0xd09108
def Adr.COD_D_CTL (i : Nat) : Nat := 0xd09200 + 0x40 * i
def Adr.COD_D_OUT_LO (i : Nat) : Nat := 0xd09204 + 0x40 * i
def Adr.COD_D_OUT_HI (i : Nat) : Nat := 0xd09208 + 0x40 * i
def Adr.COD_D_OUT_CTL (i : Nat) : Nat := 0xd0920c + 0x40 * i
def Adr.COD_D_STAT (i : Nat) : Nat := 0xd09210 + 0x40 * i
def Adr.COD_D_CNT_CONCEAL (i : Nat) : Nat := 0xd09214 + 0x40 * i
def Adr.COD_D_CNT_LATE (i : Nat) : Nat := 0xd09218 + 0x40 * i
def Adr.COD_D_CNT_KEYREQ (i : Nat) : Nat := 0xd0921c + 0x40 * i
def Adr.COD_D_CNT_DISCARD (i : Nat) : Nat := 0xd09220 + 0x40 * i
def Adr.COD_D_CNT_FULL (i : Nat) : Nat := 0xd09224 + 0x40 * i
def Adr.SEQ_STAT : Nat := 0x80000
def Adr.SEQ_STEP_MAX : Nat := 0x80004
def Adr.SEQ_UCODE_VER : Nat := 0x80008
def Adr.SEQ_PATCH_ID : Nat := 0x8000c
def Adr.SEQ_GOLD_BASE_LO : Nat := 0x80010
def Adr.SEQ_GOLD_BASE_HI : Nat := 0x80014
def Adr.SEQ_SCRUB : Nat := 0x80018
def Adr.SEQ_EVT : Nat := 0x80020
def Adr.SEQ_EVT_EN : Nat := 0x80024
def Adr.SEQ_CNT_RUNS : Nat := 0x80028
def Adr.SEQ_CNT_CORR : Nat := 0x8002c
def Adr.SEQ_CNT_RELOAD : Nat := 0x80030
def Adr.SEQ_CNT_TMO : Nat := 0x80034
def Adr.SEQ_CNT_LONG : Nat := 0x80038
def Adr.SEQ_LAST_ERR : Nat := 0x8003c
def Adr.SEQ_LOAD : Nat := 0x80040
def Adr.SEQ_MAXRUN : Nat := 0x80044
def Adr.SEQ_LS_STAT (i : Nat) : Nat := 0x81000 + 0x10 * i
def Adr.SEQ_LS_PC (i : Nat) : Nat := 0x81004 + 0x10 * i
def Adr.SEQ_LS_USED (i : Nat) : Nat := 0x81008 + 0x10 * i
def Adr.SEQ_LS_OWECNT (i : Nat) : Nat := 0x8100c + 0x10 * i
def Adr.SEQ_SCHED (i : Nat) : Nat := 0x90000 + 0x4 * i
def Adr.SEQ_DMEM (i : Nat) : Nat := 0xa0000 + 0x4 * i
def Adr.SEQ_CSTORE (i : Nat) : Nat := 0xc0000 + 0x4 * i
def Adr.SEQ_L_CTL (i : Nat) : Nat := 0x88000 + 0x20 * i
def Adr.SEQ_L_STEPS (i : Nat) : Nat := 0x88004 + 0x20 * i
def Adr.SEQ_L_ABORT (i : Nat) : Nat := 0x88008 + 0x20 * i
def Adr.SEQ_L_BUDGET (i : Nat) : Nat := 0x8800c + 0x20 * i
def Adr.QF_Q_CFG (i : Nat) : Nat := 0x100000 + 0x100 * i
def Adr.QF_Q_STORE (i : Nat) : Nat := 0x100004 + 0x100 * i
def Adr.QF_Q_LIMIT (i : Nat) : Nat := 0x100008 + 0x100 * i
def Adr.QF_Q_STAT (i : Nat) : Nat := 0x10000c + 0x100 * i
def Adr.QF_Q_TAIL (i : Nat) : Nat := 0x100010 + 0x100 * i
def Adr.QF_Q_READ (i : Nat) : Nat := 0x100014 + 0x100 * i
def Adr.QF_Q_REL (i : Nat) : Nat := 0x100018 + 0x100 * i
def Adr.QF_Q_DEPTH (i : Nat) : Nat := 0x10001c + 0x100 * i
def Adr.QF_Q_OPARG (i : Nat) : Nat := 0x100020 + 0x100 * i
def Adr.QF_Q_OP (i : Nat) : Nat := 0x100024 + 0x100 * i
def Adr.QF_Q_OPRES (i : Nat) : Nat := 0x100028 + 0x100 * i
def Adr.QF_Q_SNAP_DEPTH (i : Nat) : Nat := 0x100030 + 0x100 * i
def Adr.QF_Q_SNAP_PKTS (i : Nat) : Nat := 0x100034 + 0x100 * i
def Adr.QF_Q_SNAP_ENQ (i : Nat) : Nat := 0x100038 + 0x100 * i
def Adr.QF_Q_SNAP_DEQ (i : Nat) : Nat := 0x10003c + 0x100 * i
def Adr.QF_Q_CNT_PKT (i : Nat) : Nat := 0x100040 + 0x100 * i
def Adr.QF_Q_CNT_POISON (i : Nat) : Nat := 0x100044 + 0x100 * i
def Adr.QF_Q_CNT_STALL (i : Nat) : Nat := 0x100048 + 0x100 * i
def Adr.QF_Q_CNT_REWIND (i : Nat) : Nat := 0x10004c + 0x100 * i
def Adr.QF_Q_NOTICE (i j : Nat) : Nat := 0x100060 + 0x100 * i + 0x4 * j
def Adr.QF_Q_RDATA (i j : Nat) : Nat := 0x100080 + 0x100 * i + 0x4 * j
def Adr.QF_Q_RFLAGS (i : Nat) : Nat := 0x1000a0 + 0x100 * i
def Adr.QF_CTL : Nat := 0x1000c0
def Adr.QF_STAT : Nat := 0x1000c4
def Adr.QF_STORE_USED : Nat := 0x1000c8
def Adr.QF_CHAIN_BUF : Nat := 0x1000cc
def Adr.QF_EVT : Nat := 0x1000d0
def Adr.QF_EVT_EN : Nat := 0x1000d4
def Adr.QF_EVT_Q : Nat := 0x1000d8
def Adr.QF_RESET : Nat := 0x1000dc
def Adr.QF_RESET_RES : Nat := 0x1000e0
def Adr.QF_CNT_PARERR : Nat := 0x1000e4
def Adr.BP_P_CTL (i : Nat) : Nat := 0x200000 + 0x40 * i
def Adr.BP_P_COUNT (i : Nat) : Nat := 0x200004 + 0x40 * i
def Adr.BP_P_BASE_LO (i : Nat) : Nat := 0x200008 + 0x40 * i
def Adr.BP_P_BASE_HI (i : Nat) : Nat := 0x20000c + 0x40 * i
def Adr.BP_P_RING_LO (i : Nat) : Nat := 0x200010 + 0x40 * i
def Adr.BP_P_RING_HI (i : Nat) : Nat := 0x200014 + 0x40 * i
def Adr.BP_P_OWN_LO (i : Nat) : Nat := 0x200018 + 0x40 * i
def Adr.BP_P_OWN_HI (i : Nat) : Nat := 0x20001c + 0x40 * i
def Adr.BP_P_FREE (i : Nat) : Nat := 0x200020 + 0x40 * i
def Adr.BP_P_MINFREE (i : Nat) : Nat := 0x200024 + 0x40 * i
def Adr.BP_P_SNAP_FREE (i : Nat) : Nat := 0x200028 + 0x40 * i
def Adr.BP_P_CNT_ALLOC (i : Nat) : Nat := 0x20002c + 0x40 * i
def Adr.BP_P_CNT_EMPTY (i : Nat) : Nat := 0x200030 + 0x40 * i
def Adr.BP_P_CNT_SPILLIN (i : Nat) : Nat := 0x200034 + 0x40 * i
def Adr.BP_EVT : Nat := 0x200400
def Adr.BP_EVT_EN : Nat := 0x200404
def Adr.BP_LAST_BAD : Nat := 0x200408
def Adr.BP_LAST_BAD_H : Nat := 0x20040c
def Adr.BP_H_ALLOC : Nat := 0x200410
def Adr.BP_H_RES : Nat := 0x200414
def Adr.BP_H_HANDLE : Nat := 0x200418
def Adr.BP_H_FREE : Nat := 0x20041c
def Adr.BP_H_FREE_RES : Nat := 0x200420
def Adr.BP_CNT_BADFREE : Nat := 0x200424
def Adr.BP_R_CTL (i : Nat) : Nat := 0x201000 + 0x10 * i
def Adr.BP_R_QUOTA (i : Nat) : Nat := 0x201004 + 0x10 * i
def Adr.BP_R_HELD (i : Nat) : Nat := 0x201008 + 0x10 * i
def Adr.BP_R_CNT_REFUSED (i : Nat) : Nat := 0x20100c + 0x10 * i
def Adr.DMC_STAT (i : Nat) : Nat := 0x500000 + 0x40000 * i
def Adr.DMC_TEMP (i : Nat) : Nat := 0x500004 + 0x40000 * i
def Adr.DMC_REF_CTL (i : Nat) : Nat := 0x500008 + 0x40000 * i
def Adr.DMC_PWR_CTL (i : Nat) : Nat := 0x50000c + 0x40000 * i
def Adr.DMC_TRN_CTL (i : Nat) : Nat := 0x500010 + 0x40000 * i
def Adr.DMC_SCHED (i : Nat) : Nat := 0x500014 + 0x40000 * i
def Adr.DMC_EVT (i : Nat) : Nat := 0x500018 + 0x40000 * i
def Adr.DMC_EVT_EN (i : Nat) : Nat := 0x50001c + 0x40000 * i
def Adr.DMC_RTN_PTR (i : Nat) : Nat := 0x500020 + 0x40000 * i
def Adr.DMC_CH_OWED (i j : Nat) : Nat := 0x500100 + 0x40000 * i + 0x40 * j
def Adr.DMC_CH_CNT_CORR (i j : Nat) : Nat := 0x500104 + 0x40000 * i + 0x40 * j
def Adr.DMC_CH_CNT_UNCORR (i j : Nat) : Nat := 0x500108 + 0x40000 * i + 0x40 * j
def Adr.DMC_CH_CNT_FWD (i j : Nat) : Nat := 0x50010c + 0x40000 * i + 0x40 * j
def Adr.DMC_CH_CNT_REF (i j : Nat) : Nat := 0x500110 + 0x40000 * i + 0x40 * j
def Adr.DMC_CH_CNT_CATCHUP (i j : Nat) : Nat := 0x500114 + 0x40000 * i + 0x40 * j
def Adr.DMC_CH_CNT_SRABORT (i j : Nat) : Nat := 0x500118 + 0x40000 * i + 0x40 * j
def Adr.DMC_CH_CNT_LOST (i j : Nat) : Nat := 0x50011c + 0x40000 * i + 0x40 * j
def Adr.DMC_CH_LAST_ERR (i j : Nat) : Nat := 0x500120 + 0x40000 * i + 0x40 * j
def Adr.DMC_CH_PPR (i j : Nat) : Nat := 0x500124 + 0x40000 * i + 0x40 * j
def Adr.DMC_CH_MAXWAIT (i j : Nat) : Nat := 0x500128 + 0x40000 * i + 0x40 * j
def Adr.DMC_G_CFG : Nat := 0x520000
def Adr.DMC_G_RELOC : Nat := 0x520004
def Adr.DMC_G_RTOP : Nat := 0x520008
def Adr.DMC_G_RETIRE : Nat := 0x52000c
def Adr.DMC_G_CAP : Nat := 0x520010
def Adr.DMC_G_SCRUB : Nat := 0x520014
def Adr.DMC_G_PORT (i : Nat) : Nat := 0x520100 + 0x4 * i
def Adr.DMC_G_RGN_BASE (i : Nat) : Nat := 0x520200 + 0x10 * i
def Adr.DMC_G_RGN_SIZE (i : Nat) : Nat := 0x520204 + 0x10 * i
def Adr.DMC_G_RGN_ATTR (i : Nat) : Nat := 0x520208 + 0x10 * i
def Adr.SCH_WHEEL : Nat := 0x300000
def Adr.SCH_EVT : Nat := 0x300004
def Adr.SCH_EVT_EN : Nat := 0x300008
def Adr.SCH_EVT_SRC : Nat := 0x30000c
def Adr.SCH_P_CTL (i : Nat) : Nat := 0x301000 + 0x100 * i
def Adr.SCH_P_BYTE_T (i : Nat) : Nat := 0x301004 + 0x100 * i
def Adr.SCH_P_MAXUNIT (i : Nat) : Nat := 0x301008 + 0x100 * i
def Adr.SCH_P_MAXFT (i : Nat) : Nat := 0x30100c + 0x100 * i
def Adr.SCH_P_LIVE_LIM (i : Nat) : Nat := 0x301010 + 0x100 * i
def Adr.SCH_P_STAT (i : Nat) : Nat := 0x301014 + 0x100 * i
def Adr.SCH_P_LIVE_MAX (i : Nat) : Nat := 0x301018 + 0x100 * i
def Adr.SCH_P_CNT_UNITS (i : Nat) : Nat := 0x30101c + 0x100 * i
def Adr.SCH_P_CNT_GUARD (i : Nat) : Nat := 0x301020 + 0x100 * i
def Adr.SCH_P_CNT_REVOKE (i : Nat) : Nat := 0x301024 + 0x100 * i
def Adr.SCH_P_CNT_TOOLONG (i : Nat) : Nat := 0x301028 + 0x100 * i
def Adr.SCH_P_WIN_START (i j k : Nat) : Nat := 0x301040 + 0x100 * i + 0x20 * j + 0x8 * k
def Adr.SCH_P_WIN_LEN (i j k : Nat) : Nat := 0x301044 + 0x100 * i + 0x20 * j + 0x8 * k
def Adr.SCH_P_CL_BASE_NS (i : Nat) : Nat := 0x301080 + 0x100 * i
def Adr.SCH_P_CL_BASE_S_LO (i : Nat) : Nat := 0x301084 + 0x100 * i
def Adr.SCH_P_CL_BASE_S_HI (i : Nat) : Nat := 0x301088 + 0x100 * i
def Adr.SCH_P_CL_CYCLE (i : Nat) : Nat := 0x30108c + 0x100 * i
def Adr.SCH_P_CL_CHG_NS (i : Nat) : Nat := 0x301090 + 0x100 * i
def Adr.SCH_P_CL_CHG_S_LO (i : Nat) : Nat := 0x301094 + 0x100 * i
def Adr.SCH_P_CL_CHG_S_HI (i : Nat) : Nat := 0x301098 + 0x100 * i
def Adr.SCH_P_CL_CTL (i : Nat) : Nat := 0x30109c + 0x100 * i
def Adr.SCH_P_CL_GATES (i j k : Nat) : Nat := 0x308000 + 0x400 * i + 0x200 * j + 0x8 * k
def Adr.SCH_P_CL_IVL (i j k : Nat) : Nat := 0x308004 + 0x400 * i + 0x200 * j + 0x8 * k
def Adr.SCH_Q_CFG (i : Nat) : Nat := 0x310000 + 0x20 * i
def Adr.SCH_Q_RATE (i : Nat) : Nat := 0x310004 + 0x20 * i
def Adr.SCH_Q_BURST (i : Nat) : Nat := 0x310008 + 0x20 * i
def Adr.SCH_Q_BAL (i : Nat) : Nat := 0x31000c + 0x20 * i
def Adr.SCH_Q_SNAP_UNSENT (i : Nat) : Nat := 0x310010 + 0x20 * i
def Adr.SCH_Q_SNAP_DLY (i : Nat) : Nat := 0x310014 + 0x20 * i
def Adr.SCH_Q_HWM_UNSENT (i : Nat) : Nat := 0x310018 + 0x20 * i
def Adr.SCH_Q_HWM_DLY (i : Nat) : Nat := 0x31001c + 0x20 * i
def Adr.XCV_CTL (i : Nat) : Nat := 0x680000 + 0x20000 * i
def Adr.XCV_STAT (i : Nat) : Nat := 0x680004 + 0x20000 * i
def Adr.XCV_POL (i : Nat) : Nat := 0x680008 + 0x20000 * i
def Adr.XCV_EQ_CTL (i : Nat) : Nat := 0x68000c + 0x20000 * i
def Adr.XCV_EQ_STAT (i : Nat) : Nat := 0x680010 + 0x20000 * i
def Adr.XCV_TX_FIR (i j : Nat) : Nat := 0x680014 + 0x20000 * i + 0x4 * j
def Adr.XCV_LINK (i : Nat) : Nat := 0x680024 + 0x20000 * i
def Adr.XCV_TMO (i : Nat) : Nat := 0x680028 + 0x20000 * i
def Adr.XCV_BC_CTL (i : Nat) : Nat := 0x68002c + 0x20000 * i
def Adr.XCV_EVT (i : Nat) : Nat := 0x680030 + 0x20000 * i
def Adr.XCV_EVT_EN (i : Nat) : Nat := 0x680034 + 0x20000 * i
def Adr.XCV_TX_SEQ (i : Nat) : Nat := 0x680038 + 0x20000 * i
def Adr.XCV_RX_SEQ (i : Nat) : Nat := 0x68003c + 0x20000 * i
def Adr.XCV_CNT_CRCERR (i : Nat) : Nat := 0x680040 + 0x20000 * i
def Adr.XCV_CNT_REPLAY (i : Nat) : Nat := 0x680044 + 0x20000 * i
def Adr.XCV_CNT_RXDROP (i : Nat) : Nat := 0x680048 + 0x20000 * i
def Adr.XCV_CNT_BCBAD (i : Nat) : Nat := 0x68004c + 0x20000 * i
def Adr.XCV_CNT_LOCKLOSS (i : Nat) : Nat := 0x680050 + 0x20000 * i
def Adr.XCV_BC_RX (i j : Nat) : Nat := 0x680080 + 0x20000 * i + 0x4 * j
def Adr.XCV_TXCH (i j : Nat) : Nat := 0x680400 + 0x20000 * i + 0x4 * j
def Adr.XCV_RXCH (i j : Nat) : Nat := 0x680500 + 0x20000 * i + 0x4 * j
def Adr.XCV_E_CTL (i j : Nat) : Nat := 0x681000 + 0x20000 * i + 0x100 * j
def Adr.XCV_E_MAC_LO (i j : Nat) : Nat := 0x681004 + 0x20000 * i + 0x100 * j
def Adr.XCV_E_MAC_HI (i j : Nat) : Nat := 0x681008 + 0x20000 * i + 0x100 * j
def Adr.XCV_E_IP (i j : Nat) : Nat := 0x68100c + 0x20000 * i + 0x100 * j
def Adr.XCV_E_RXQ (i j : Nat) : Nat := 0x681010 + 0x20000 * i + 0x100 * j
def Adr.XCV_E_STAT (i j : Nat) : Nat := 0x681014 + 0x20000 * i + 0x100 * j
def Adr.XCV_E_FILT (i j k : Nat) : Nat := 0x681020 + 0x20000 * i + 0x100 * j + 0x4 * k
def Adr.XCV_E_CNT_TXF (i j : Nat) : Nat := 0x681040 + 0x20000 * i + 0x100 * j
def Adr.XCV_E_CNT_RXF (i j : Nat) : Nat := 0x681044 + 0x20000 * i + 0x100 * j
def Adr.XCV_E_CNT_FCSERR (i j : Nat) : Nat := 0x681048 + 0x20000 * i + 0x100 * j
def Adr.XCV_E_CNT_RXDROP (i j : Nat) : Nat := 0x68104c + 0x20000 * i + 0x100 * j
def Adr.XCV_E_CNT_PAUSE (i j : Nat) : Nat := 0x681050 + 0x20000 * i + 0x100 * j
def Adr.XCV_E_CNT_FEC (i j : Nat) : Nat := 0x681054 + 0x20000 * i + 0x100 * j
def Adr.PTP_CTL : Nat := 0x60000
def Adr.PTP_STAT : Nat := 0x60004
def Adr.PTP_TIME_NS : Nat := 0x60008
def Adr.PTP_TIME_S_LO : Nat := 0x6000c
def Adr.PTP_TIME_S_HI : Nat := 0x60010
def Adr.PTP_SET_NS : Nat := 0x60014
def Adr.PTP_SET_S_LO : Nat := 0x60018
def Adr.PTP_SET_S_HI : Nat := 0x6001c
def Adr.PTP_OFFSET : Nat := 0x60020
def Adr.PTP_MPD : Nat := 0x60024
def Adr.PTP_FREQ : Nat := 0x60028
def Adr.PTP_SERVO : Nat := 0x6002c
def Adr.PTP_LOCK : Nat := 0x60030
def Adr.PTP_ASYM : Nat := 0x60034
def Adr.PTP_GM_ID_LO : Nat := 0x60038
def Adr.PTP_GM_ID_HI : Nat := 0x6003c
def Adr.PTP_EVT : Nat := 0x60040
def Adr.PTP_EVT_EN : Nat := 0x60044
def Adr.PTP_CNT_SYNC : Nat := 0x60048
def Adr.PTP_CNT_BAD : Nat := 0x6004c
def Adr.DMA_CTL : Nat := 0x400000
def Adr.DMA_STAT : Nat := 0x400004
def Adr.DMA_EVT : Nat := 0x400008
def Adr.DMA_EVT_EN : Nat := 0x40000c
def Adr.DMA_PEND : Nat := 0x400010
def Adr.DMA_C_CFG (i : Nat) : Nat := 0x401000 + 0x100 * i
def Adr.DMA_C_CTL (i : Nat) : Nat := 0x401004 + 0x100 * i
def Adr.DMA_C_STAT (i : Nat) : Nat := 0x401008 + 0x100 * i
def Adr.DMA_C_RING_LO (i : Nat) : Nat := 0x401010 + 0x100 * i
def Adr.DMA_C_RING_HI (i : Nat) : Nat := 0x401014 + 0x100 * i
def Adr.DMA_C_RING_CFG (i : Nat) : Nat := 0x401018 + 0x100 * i
def Adr.DMA_C_DB (i : Nat) : Nat := 0x40101c + 0x100 * i
def Adr.DMA_C_HEAD (i : Nat) : Nat := 0x401020 + 0x100 * i
def Adr.DMA_C_SHD (i j : Nat) : Nat := 0x401040 + 0x100 * i + 0x4 * j
def Adr.DMA_C_GO (i : Nat) : Nat := 0x401060 + 0x100 * i
def Adr.DMA_C_RES (i : Nat) : Nat := 0x401064 + 0x100 * i
def Adr.DMA_C_RES_CHK (i : Nat) : Nat := 0x401068 + 0x100 * i
def Adr.DMA_C_RES_BYTES (i : Nat) : Nat := 0x40106c + 0x100 * i
def Adr.DMA_C_CNT_DESC (i : Nat) : Nat := 0x401080 + 0x100 * i
def Adr.DMA_C_CNT_ERR (i : Nat) : Nat := 0x401084 + 0x100 * i
def Adr.DMA_C_CNT_PREEMPT (i : Nat) : Nat := 0x401088 + 0x100 * i
def Adr.GLB_EVT : Nat := 0x40
def Adr.GLB_EVT_EN : Nat := 0x44
def Adr.HST_ACC_ERR : Nat := 0x40000
def Adr.HST_ACC_ERR_ADDR_LO : Nat := 0x40004
def Adr.HST_ACC_ERR_ADDR_HI : Nat := 0x40008
def Adr.HST_PCIE_STAT : Nat := 0x4000c
def Adr.HST_PCIE_ID : Nat := 0x40010
def Adr.HST_BAR2_CFG : Nat := 0x40014
def Adr.HST_BAR2_BASE_LO : Nat := 0x40018
def Adr.HST_BAR2_BASE_HI : Nat := 0x4001c
def Adr.HST_MSPI_CNT_ABORT : Nat := 0x40020
def Adr.HST_W_REQ (i j : Nat) : Nat := 0x41000 + 0x100 * i + 0x4 * j
def Adr.HST_W_DB (i : Nat) : Nat := 0x41040 + 0x100 * i
def Adr.HST_W_RESP (i : Nat) : Nat := 0x41044 + 0x100 * i
def Adr.HST_W_CTL (i : Nat) : Nat := 0x41048 + 0x100 * i
def Adr.HST_W_DONE (i : Nat) : Nat := 0x4104c + 0x100 * i
def Adr.HST_W_SEQANS (i : Nat) : Nat := 0x41050 + 0x100 * i
def Adr.HST_W_ANS (i j : Nat) : Nat := 0x41080 + 0x100 * i + 0x4 * j
def Adr.IC_EN (i j : Nat) : Nat := 0x30000 + 0x1000 * i + 0x4 * j
def Adr.IC_THR (i j : Nat) : Nat := 0x30100 + 0x8000 * i + 0x1000 * j
def Adr.IC_CLAIM (i j : Nat) : Nat := 0x30104 + 0x8000 * i + 0x1000 * j
def Adr.IC_LINE (i j : Nat) : Nat := 0x30108 + 0x8000 * i + 0x1000 * j
def Adr.IC_SRC_CFG (i : Nat) : Nat := 0x34000 + 0x4 * i
def Adr.IC_PEND (i : Nat) : Nat := 0x34400 + 0x4 * i
def Adr.IC_PEND_SET (i : Nat) : Nat := 0x34480 + 0x4 * i
def Adr.IC_ACTIVE (i : Nat) : Nat := 0x34500 + 0x4 * i
def Adr.IC_LEVEL (i : Nat) : Nat := 0x34600 + 0x4 * i
def Adr.IC_ROUTE (i : Nat) : Nat := 0x34800 + 0x4 * i
def Adr.IC_ERR : Nat := 0x34900
def Adr.IC_CNT_SPUR : Nat := 0x34904
def Adr.IC_QW (i : Nat) : Nat := 0x35000 + 0x4 * i
def Adr.MSIX_ADDR (i : Nat) : Nat := 0x3c000 + 0x10 * i
def Adr.MSIX_UADDR (i : Nat) : Nat := 0x3c004 + 0x10 * i
def Adr.MSIX_DATA (i : Nat) : Nat := 0x3c008 + 0x10 * i
def Adr.MSIX_CTL (i : Nat) : Nat := 0x3c00c + 0x10 * i
def Adr.MSIX_PBA (i : Nat) : Nat := 0x3d000 + 0x4 * i
def Adr.BOOT_STAT : Nat := 0x50000
def Adr.BOOT_ERR_A : Nat := 0x50004
def Adr.BOOT_ERR_B : Nat := 0x50008
def Adr.BOOT_ERR_ADDR : Nat := 0x5000c
def Adr.BOOT_IMG_VER : Nat := 0x50010
def Adr.BOOT_TIME : Nat := 0x50014
def Adr.BOOT_CNT : Nat := 0x50018
def Adr.BOOT_REPAIR : Nat := 0x5001c
def Adr.BOOT_PATCH : Nat := 0x50020
def Adr.BOOT_CTL : Nat := 0x50024
def Adr.BOOT_KEY_ID : Nat := 0x50028
def Adr.BOOT_FL_OP : Nat := 0x50040
def Adr.BOOT_FL_ADDR : Nat := 0x50044
def Adr.BOOT_FL_LEN : Nat := 0x50048
def Adr.BOOT_FL_RES : Nat := 0x5004c
def Adr.BOOT_FL_INFO : Nat := 0x50050
def Adr.BOOT_FL_BUF (i : Nat) : Nat := 0x51000 + 0x4 * i
def Adr.PWR_DRAIN_TMO : Nat := 0x10000
def Adr.PWR_LOOP : Nat := 0x10004
def Adr.PWR_WAKE : Nat := 0x10008
def Adr.PWR_AVS_CFG : Nat := 0x1000c
def Adr.PWR_AVS_STAT : Nat := 0x10010
def Adr.PWR_EVT : Nat := 0x10014
def Adr.PWR_EVT_EN : Nat := 0x10018
def Adr.PWR_CNT_DRAINABORT : Nat := 0x1001c
def Adr.PWR_D_STAT (i : Nat) : Nat := 0x10100 + 0x4 * i
def Adr.CLK_D_STAT (i : Nat) : Nat := 0x11000 + 0x4 * i
def Adr.CLK_PLL_STAT : Nat := 0x11080
def Adr.CLK_CNT_UNLOCK : Nat := 0x11084
def Adr.THM_STAT : Nat := 0x12000
def Adr.THM_CTL : Nat := 0x12004
def Adr.THM_OD_CTL : Nat := 0x12008
def Adr.THM_OD_STAT : Nat := 0x1200c
def Adr.THM_WEAR : Nat := 0x12010
def Adr.THM_WEAR_LEFT : Nat := 0x12014
def Adr.THM_EVT : Nat := 0x12018
def Adr.THM_EVT_EN : Nat := 0x1201c
def Adr.THM_SENS (i : Nat) : Nat := 0x12020 + 0x4 * i
def Adr.THM_MAX : Nat := 0x12060
def Adr.THM_DUTY : Nat := 0x12064
def Adr.THM_CNT_SLOW : Nat := 0x12068
def Adr.FLT_CTL : Nat := 0x20000
def Adr.FLT_WIN : Nat := 0x20004
def Adr.FLT_STAT : Nat := 0x20008
def Adr.FLT_FIRST (i : Nat) : Nat := 0x20010 + 0x4 * i
def Adr.FLT_LAST (i : Nat) : Nat := 0x20030 + 0x4 * i
def Adr.FLT_HIST_IDX : Nat := 0x20050
def Adr.FLT_HIST_REC (i : Nat) : Nat := 0x20060 + 0x4 * i
def Adr.FLT_EVT : Nat := 0x20080
def Adr.FLT_EVT_EN : Nat := 0x20084
def Adr.FLT_CNT_HW : Nat := 0x20088
def Adr.FLT_CNT_SW : Nat := 0x2008c
def Adr.FLT_CNT_STREAM : Nat := 0x20090
def Adr.FLT_CNT_LASTING : Nat := 0x20094
def Adr.FLT_CNT_LOST : Nat := 0x20098
def Adr.FLT_UNIT (i : Nat) : Nat := 0x20100 + 0x4 * i
def Adr.FLT_INJ_CTL : Nat := 0x20400
def Adr.FLT_INJ_ARG : Nat := 0x20404
def Adr.FLT_INJ_STAT : Nat := 0x20408
def Adr.GLB_HEALTH : Nat := 0x48
def Adr.GLB_GPIO_IN : Nat := 0x60
def Adr.GLB_GPIO_OUT : Nat := 0x64
def Adr.GLB_GPIO_OE : Nat := 0x68
def Adr.XCV_TPL (i j k : Nat) : Nat := 0x682000 + 0x20000 * i + 0x80 * j + 0x4 * k

/-- The registers of the GLB block (00_scope.md, 01_tick_and_paths.md, 14_host_requests_interrupts.md, 17_faults_and_service.md, 19_package_and_balls.md). -/
def rowsGlb : List RegRow :=
  [⟨0x0, [], .ro, 0x7a509b01, 0xffffffff⟩,
   ⟨0x4, [], .ro, 0x0, 0x7⟩,
   ⟨0x8, [], .ro, 0x0, 0x3ffff⟩,
   ⟨0x10, [], .rwl, 0x823, 0xff7f⟩,
   ⟨0x14, [], .rwl, 0x10018, 0xffffffff⟩,
   ⟨0x18, [], .ro, 0x0, 0xffffffff⟩,
   ⟨0x1c, [], .ro, 0x0, 0xffff⟩,
   ⟨0x20, [], .ro, 0x0, 0xff01⟩,
   ⟨0x24, [], .rc, 0x0, 0xffffffff⟩,
   ⟨0x28, [], .rc, 0x0, 0xffffffff⟩,
   ⟨0x2c, [], .rc, 0x0, 0xffffffff⟩,
   ⟨0x30, [], .rwl, 0x0, 0x1⟩,
   ⟨0x40, [], .w1c, 0x0, 0xf⟩,
   ⟨0x44, [], .rw, 0x0, 0xf⟩,
   ⟨0x48, [], .ro, 0x4, 0xf1f0f⟩,
   ⟨0x60, [], .ro, 0x0, 0xff⟩,
   ⟨0x64, [], .rw, 0x0, 0xff⟩,
   ⟨0x68, [], .rw, 0x0, 0xff⟩]

/-- The registers of the PWR block (16_power_clocks_thermal.md). -/
def rowsPwr : List RegRow :=
  [⟨0x10000, [], .rw, 0x7d0, 0xffff⟩,
   ⟨0x10004, [], .rwl, 0xf, 0xf⟩,
   ⟨0x10008, [], .rw, 0x0, 0x7⟩,
   ⟨0x1000c, [], .rwl, 0x20000352, 0xfc0003ff⟩,
   ⟨0x10010, [], .ro, 0x0, 0x3ffffff⟩,
   ⟨0x10014, [], .w1c, 0x0, 0x3f⟩,
   ⟨0x10018, [], .rw, 0x0, 0x3f⟩,
   ⟨0x1001c, [], .rc, 0x0, 0xffffffff⟩,
   ⟨0x10100, [(22, 0x4)], .ro, 0x0, 0x3ff7f⟩,
   ⟨0x11000, [(30, 0x4)], .ro, 0x0, 0xffff00ff⟩,
   ⟨0x11080, [], .ro, 0x0, 0x1ff⟩,
   ⟨0x11084, [], .rc, 0x0, 0xffffffff⟩,
   ⟨0x12000, [], .ro, 0x0, 0xfff0fff⟩,
   ⟨0x12004, [], .rwl, 0x301, 0xf01⟩,
   ⟨0x12008, [], .rwl, 0x2580a00, 0x3ffff00⟩,
   ⟨0x1200c, [], .ro, 0x0, 0x3⟩,
   ⟨0x12010, [], .ro, 0x0, 0xfffff⟩,
   ⟨0x12014, [], .ro, 0x927c0, 0xfffff⟩,
   ⟨0x12018, [], .w1c, 0x0, 0x7f⟩,
   ⟨0x1201c, [], .rw, 0x0, 0x7f⟩] ++
  [⟨0x12020, [(12, 0x4)], .ro, 0x0, 0x81ff⟩,
   ⟨0x12060, [], .rc, 0x0, 0x1ff⟩,
   ⟨0x12064, [], .ro, 0x1fffff, 0x1fffff⟩,
   ⟨0x12068, [], .rc, 0x0, 0xffffffff⟩]

/-- The registers of the FLT block (17_faults_and_service.md). -/
def rowsFlt : List RegRow :=
  [⟨0x20000, [], .rw, 0x90404, 0xf0f07⟩,
   ⟨0x20004, [], .rw, 0xe1003e8, 0xffffffff⟩,
   ⟨0x20008, [], .w1c, 0x8, 0xffffff0f⟩,
   ⟨0x20010, [(8, 0x4)], .ro, 0x0, 0xffffffff⟩,
   ⟨0x20030, [(8, 0x4)], .ro, 0x0, 0xffffffff⟩,
   ⟨0x20050, [], .rw, 0x0, 0xff⟩,
   ⟨0x20060, [(8, 0x4)], .ro, 0x0, 0xffffffff⟩,
   ⟨0x20080, [], .w1c, 0x0, 0x1ff⟩,
   ⟨0x20084, [], .rw, 0x0, 0x1ff⟩,
   ⟨0x20088, [], .rc, 0x0, 0xffffffff⟩,
   ⟨0x2008c, [], .rc, 0x0, 0xffffffff⟩,
   ⟨0x20090, [], .rc, 0x0, 0xffffffff⟩,
   ⟨0x20094, [], .rc, 0x0, 0xffffffff⟩,
   ⟨0x20098, [], .rc, 0x0, 0xffffffff⟩,
   ⟨0x20100, [(23, 0x4)], .ro, 0x0, 0x3ff7f⟩,
   ⟨0x20400, [], .rw, 0x0, 0xffff03ff⟩,
   ⟨0x20404, [], .rw, 0x0, 0xffffffff⟩,
   ⟨0x20408, [], .ro, 0x0, 0x3⟩]

/-- The registers of the IC block (14_host_requests_interrupts.md). -/
def rowsIc : List RegRow :=
  [⟨0x30000, [(4, 0x1000), (8, 0x4)], .rw, 0x0, 0xffffffff⟩,
   ⟨0x30100, [(2, 0x8000), (4, 0x1000)], .rw, 0x0, 0x7⟩,
   ⟨0x30104, [(2, 0x8000), (4, 0x1000)], .rw, 0x0, 0xff⟩,
   ⟨0x30108, [(2, 0x8000), (4, 0x1000)], .ro, 0x0, 0x1⟩,
   ⟨0x34000, [(256, 0x4)], .rw, 0x0, 0xf⟩,
   ⟨0x34400, [(8, 0x4)], .ro, 0x0, 0xffffffff⟩,
   ⟨0x34480, [(8, 0x4)], .w1s, 0x0, 0xffffffff⟩,
   ⟨0x34500, [(8, 0x4)], .ro, 0x0, 0xffffffff⟩,
   ⟨0x34600, [(8, 0x4)], .ro, 0x0, 0xffffffff⟩,
   ⟨0x34800, [(8, 0x4)], .rw, 0x0, 0x7f7⟩,
   ⟨0x34900, [], .rc, 0x0, 0xfff⟩,
   ⟨0x34904, [], .rc, 0x0, 0xffffffff⟩,
   ⟨0x35000, [(32, 0x4)], .rw, 0x0, 0x80000fff⟩,
   ⟨0x3c000, [(64, 0x10)], .rw, 0x0, 0xffffffff⟩,
   ⟨0x3c004, [(64, 0x10)], .rw, 0x0, 0xffffffff⟩,
   ⟨0x3c008, [(64, 0x10)], .rw, 0x0, 0xffffffff⟩,
   ⟨0x3c00c, [(64, 0x10)], .rw, 0x1, 0x1⟩,
   ⟨0x3d000, [(2, 0x4)], .ro, 0x0, 0xffffffff⟩]

/-- The registers of the HST block (14_host_requests_interrupts.md). -/
def rowsHst : List RegRow :=
  [⟨0x40000, [], .w1c, 0x0, 0xffff0f⟩,
   ⟨0x40004, [], .ro, 0x0, 0xffffffff⟩,
   ⟨0x40008, [], .ro, 0x0, 0xffffffff⟩,
   ⟨0x4000c, [], .ro, 0x0, 0x3ff⟩,
   ⟨0x40010, [], .ro, 0x0, 0xffffffff⟩,
   ⟨0x40014, [], .rwl, 0x1e, 0x3f⟩,
   ⟨0x40018, [], .rw, 0x0, 0xffffffff⟩,
   ⟨0x4001c, [], .rw, 0x0, 0xffffffff⟩,
   ⟨0x40020, [], .rc, 0x0, 0xffffffff⟩,
   ⟨0x41000, [(4, 0x100), (16, 0x4)], .rw, 0x0, 0xffffffff⟩,
   ⟨0x41040, [(4, 0x100)], .wo, 0x0, 0xff⟩,
   ⟨0x41044, [(4, 0x100)], .ro, 0x0, 0x3ffff⟩,
   ⟨0x41048, [(4, 0x100)], .rw, 0x0, 0x3⟩,
   ⟨0x4104c, [(4, 0x100)], .w1c, 0x0, 0x1⟩,
   ⟨0x41050, [(4, 0x100)], .wo, 0x0, 0xffffffff⟩,
   ⟨0x41080, [(4, 0x100), (16, 0x4)], .ro, 0x0, 0xffffffff⟩]

/-- The registers of the BOOT block (15_boot_image.md). -/
def rowsBoot : List RegRow :=
  [⟨0x50000, [], .ro, 0x20, 0xff⟩,
   ⟨0x50004, [], .ro, 0x0, 0xffff1fff⟩,
   ⟨0x50008, [], .ro, 0x0, 0xffffffff⟩,
   ⟨0x5000c, [], .ro, 0x0, 0xffffffff⟩,
   ⟨0x50010, [], .ro, 0x0, 0xffffffff⟩,
   ⟨0x50014, [], .ro, 0x0, 0xffffffff⟩,
   ⟨0x50018, [], .ro, 0x0, 0xffffffff⟩,
   ⟨0x5001c, [], .ro, 0x0, 0xffffff⟩,
   ⟨0x50020, [], .ro, 0x0, 0xffff00ff⟩,
   ⟨0x50024, [], .rw, 0x0, 0x103⟩,
   ⟨0x50028, [], .ro, 0x0, 0xffffffff⟩,
   ⟨0x50040, [], .wo, 0x0, 0x7⟩,
   ⟨0x50044, [], .rw, 0x0, 0xffffffff⟩,
   ⟨0x50048, [], .rw, 0x0, 0x1fff⟩,
   ⟨0x5004c, [], .ro, 0x0, 0x1ff⟩,
   ⟨0x50050, [], .ro, 0x0, 0x1ffff⟩,
   ⟨0x51000, [(1024, 0x4)], .rw, 0x0, 0xffffffff⟩]

/-- The registers of the PTP block (12_crossing_ferry_ethernet.md). -/
def rowsPtp : List RegRow :=
  [⟨0x60000, [], .rwl, 0x37f42, 0xfff7f⟩,
   ⟨0x60004, [], .ro, 0x0, 0xf⟩,
   ⟨0x60008, [], .ro, 0x0, 0xffffffff⟩,
   ⟨0x6000c, [], .ro, 0x0, 0xffffffff⟩,
   ⟨0x60010, [], .ro, 0x0, 0xffff⟩,
   ⟨0x60014, [], .rw, 0x0, 0xffffffff⟩,
   ⟨0x60018, [], .rw, 0x0, 0xffffffff⟩,
   ⟨0x6001c, [], .rw, 0x0, 0x8000ffff⟩,
   ⟨0x60020, [], .ro, 0x0, 0xffffffff⟩,
   ⟨0x60024, [], .ro, 0x0, 0xffffffff⟩,
   ⟨0x60028, [], .ro, 0x0, 0xffffffff⟩,
   ⟨0x6002c, [], .rwl, 0xc80440, 0xffffffff⟩,
   ⟨0x60030, [], .rwl, 0x64, 0xffff⟩,
   ⟨0x60034, [], .rwl, 0x0, 0xffffffff⟩,
   ⟨0x60038, [], .ro, 0x0, 0xffffffff⟩,
   ⟨0x6003c, [], .ro, 0x0, 0xffffffff⟩,
   ⟨0x60040, [], .w1c, 0x0, 0x1f⟩,
   ⟨0x60044, [], .rw, 0x0, 0x1f⟩,
   ⟨0x60048, [], .rc, 0x0, 0xffffffff⟩,
   ⟨0x6004c, [], .rc, 0x0, 0xffffffff⟩]

/-- The registers of the SEQ block (07_frame_sequencer.md). -/
def rowsSeq : List RegRow :=
  [⟨0x80000, [], .ro, 0x0, 0xffff⟩,
   ⟨0x80004, [], .rwl, 0x600, 0x7ff⟩,
   ⟨0x80008, [], .ro, 0x0, 0xffffffff⟩,
   ⟨0x8000c, [], .ro, 0x0, 0xffffff⟩,
   ⟨0x80010, [], .rwl, 0x0, 0xffffffff⟩,
   ⟨0x80014, [], .rwl, 0x0, 0xffffffff⟩,
   ⟨0x80018, [], .rwl, 0x110, 0x1ff⟩,
   ⟨0x80020, [], .w1c, 0x0, 0xff⟩,
   ⟨0x80024, [], .rw, 0x0, 0xff⟩,
   ⟨0x80028, [], .rc, 0x0, 0xffffffff⟩,
   ⟨0x8002c, [], .rc, 0x0, 0xffffffff⟩,
   ⟨0x80030, [], .rc, 0x0, 0xffffffff⟩,
   ⟨0x80034, [], .rc, 0x0, 0xffffffff⟩,
   ⟨0x80038, [], .rc, 0x0, 0xffffffff⟩,
   ⟨0x8003c, [], .ro, 0x0, 0x3ffffff⟩,
   ⟨0x80040, [], .ro, 0x0, 0x3ff⟩,
   ⟨0x80044, [], .rc, 0x0, 0x7fffff⟩,
   ⟨0x81000, [(128, 0x10)], .ro, 0x0, 0xff01ff⟩,
   ⟨0x81004, [(128, 0x10)], .ro, 0x0, 0xfffffff⟩,
   ⟨0x81008, [(128, 0x10)], .ro, 0x0, 0xffffffff⟩] ++
  [⟨0x8100c, [(128, 0x10)], .rc, 0x0, 0xffffffff⟩,
   ⟨0x90000, [(8192, 0x4)], .rwl, 0x0, 0xffffffff⟩,
   ⟨0xa0000, [(16384, 0x4)], .rw, 0x0, 0xffffffff⟩,
   ⟨0xc0000, [(65536, 0x4)], .rwl, 0x0, 0xffffffff⟩,
   ⟨0x88000, [(128, 0x20)], .rwl, 0x8, 0xffffff⟩,
   ⟨0x88004, [(128, 0x20)], .rwl, 0x0, 0xfff0fff⟩,
   ⟨0x88008, [(128, 0x20)], .rwl, 0x0, 0xffff⟩,
   ⟨0x8800c, [(128, 0x20)], .rwl, 0x0, 0xffffff⟩]

/-- The registers of the QF block (08_queue_fabric.md). -/
def rowsQf : List RegRow :=
  [⟨0x100000, [(4096, 0x100)], .rwl, 0x8, 0xff7f⟩,
   ⟨0x100004, [(4096, 0x100)], .rwl, 0x10101, 0xffffff⟩,
   ⟨0x100008, [(4096, 0x100)], .rwt, 0x0, 0x3ffffff⟩,
   ⟨0x10000c, [(4096, 0x100)], .ro, 0x0, 0xffffffff⟩,
   ⟨0x100010, [(4096, 0x100)], .ro, 0x0, 0xffffffff⟩,
   ⟨0x100014, [(4096, 0x100)], .ro, 0x0, 0xffffffff⟩,
   ⟨0x100018, [(4096, 0x100)], .ro, 0x0, 0xffffffff⟩,
   ⟨0x10001c, [(4096, 0x100)], .ro, 0x0, 0x3ffffff⟩,
   ⟨0x100020, [(4096, 0x100)], .rw, 0x0, 0xffffffff⟩,
   ⟨0x100024, [(4096, 0x100)], .wo, 0x0, 0x3⟩,
   ⟨0x100028, [(4096, 0x100)], .ro, 0x0, 0x1ff⟩,
   ⟨0x100030, [(4096, 0x100)], .ro, 0x0, 0xffffffff⟩,
   ⟨0x100034, [(4096, 0x100)], .ro, 0x0, 0xffffffff⟩,
   ⟨0x100038, [(4096, 0x100)], .ro, 0x0, 0xffffffff⟩,
   ⟨0x10003c, [(4096, 0x100)], .ro, 0x0, 0xffffffff⟩,
   ⟨0x100040, [(4096, 0x100)], .rc, 0x0, 0xffffffff⟩,
   ⟨0x100044, [(4096, 0x100)], .rc, 0x0, 0xffffffff⟩,
   ⟨0x100048, [(4096, 0x100)], .rc, 0x0, 0xffffffff⟩,
   ⟨0x10004c, [(4096, 0x100)], .rc, 0x0, 0xffffffff⟩,
   ⟨0x100060, [(4096, 0x100), (4, 0x4)], .ro, 0x0, 0xffffffff⟩] ++
  [⟨0x100080, [(4096, 0x100), (8, 0x4)], .ro, 0x0, 0xffffffff⟩,
   ⟨0x1000a0, [(4096, 0x100)], .ro, 0x0, 0x7f⟩,
   ⟨0x1000c0, [], .rwl, 0x1, 0x1⟩,
   ⟨0x1000c4, [], .ro, 0x0, 0x3⟩,
   ⟨0x1000c8, [], .ro, 0x0, 0x3ffff⟩,
   ⟨0x1000cc, [], .ro, 0x0, 0xffffffff⟩,
   ⟨0x1000d0, [], .w1c, 0x0, 0xf⟩,
   ⟨0x1000d4, [], .rw, 0x0, 0xf⟩,
   ⟨0x1000d8, [], .ro, 0x0, 0xfff⟩,
   ⟨0x1000dc, [], .wo, 0x0, 0x1⟩,
   ⟨0x1000e0, [], .ro, 0x0, 0xff⟩,
   ⟨0x1000e4, [], .rc, 0x0, 0xffffffff⟩]

/-- The registers of the BP block (09_buffer_pools.md). -/
def rowsBp : List RegRow :=
  [⟨0x200000, [(6, 0x40)], .rwl, 0x0, 0x1⟩,
   ⟨0x200004, [(6, 0x40)], .rwl, 0x0, 0x1ffffff⟩,
   ⟨0x200008, [(6, 0x40)], .rwl, 0x0, 0xffffffff⟩,
   ⟨0x20000c, [(6, 0x40)], .rwl, 0x0, 0xffffffff⟩,
   ⟨0x200010, [(6, 0x40)], .rwl, 0x0, 0xffffffff⟩,
   ⟨0x200014, [(6, 0x40)], .rwl, 0x0, 0xffffffff⟩,
   ⟨0x200018, [(6, 0x40)], .rwl, 0x0, 0xffffffff⟩,
   ⟨0x20001c, [(6, 0x40)], .rwl, 0x0, 0xffffffff⟩,
   ⟨0x200020, [(6, 0x40)], .ro, 0x0, 0x1ffffff⟩,
   ⟨0x200024, [(6, 0x40)], .rc, 0x1ffffff, 0x1ffffff⟩,
   ⟨0x200028, [(6, 0x40)], .ro, 0x0, 0x1ffffff⟩,
   ⟨0x20002c, [(6, 0x40)], .rc, 0x0, 0xffffffff⟩,
   ⟨0x200030, [(6, 0x40)], .rc, 0x0, 0xffffffff⟩,
   ⟨0x200034, [(6, 0x40)], .rc, 0x0, 0xffffffff⟩,
   ⟨0x200400, [], .w1c, 0x0, 0xf⟩,
   ⟨0x200404, [], .rw, 0x0, 0xf⟩,
   ⟨0x200408, [], .ro, 0x0, 0xff3f⟩,
   ⟨0x20040c, [], .ro, 0x0, 0xffffffff⟩,
   ⟨0x200410, [], .wo, 0x0, 0x7ffff0f⟩,
   ⟨0x200414, [], .ro, 0x0, 0x1ff⟩] ++
  [⟨0x200418, [], .ro, 0x0, 0xffffffff⟩,
   ⟨0x20041c, [], .wo, 0x0, 0xffffffff⟩,
   ⟨0x200420, [], .ro, 0x0, 0x1ff⟩,
   ⟨0x200424, [], .rc, 0x0, 0xffffffff⟩,
   ⟨0x201000, [(64, 0x10)], .rwl, 0xa, 0xf⟩,
   ⟨0x201004, [(64, 0x10)], .rwt, 0x0, 0xffffff⟩,
   ⟨0x201008, [(64, 0x10)], .ro, 0x0, 0xffffff⟩,
   ⟨0x20100c, [(64, 0x10)], .rc, 0x0, 0xffffffff⟩]

/-- The registers of the SCH block (11_egress_scheduler.md). -/
def rowsSch : List RegRow :=
  [⟨0x300000, [], .ro, 0x0, 0xffffffff⟩,
   ⟨0x300004, [], .w1c, 0x0, 0xf⟩,
   ⟨0x300008, [], .rw, 0x0, 0xf⟩,
   ⟨0x30000c, [], .ro, 0x0, 0xff7fff⟩,
   ⟨0x301000, [(8, 0x100)], .rwl, 0x0, 0x3⟩,
   ⟨0x301004, [(8, 0x100)], .ro, 0x0, 0xffffffff⟩,
   ⟨0x301008, [(8, 0x100)], .ro, 0x0, 0xffff⟩,
   ⟨0x30100c, [(8, 0x100)], .rwl, 0x0, 0xffffff⟩,
   ⟨0x301010, [(8, 0x100)], .rwl, 0x3e80, 0xffff⟩,
   ⟨0x301014, [(8, 0x100)], .ro, 0x6, 0xf⟩,
   ⟨0x301018, [(8, 0x100)], .rc, 0x0, 0xffffff⟩,
   ⟨0x30101c, [(8, 0x100)], .rc, 0x0, 0xffffffff⟩,
   ⟨0x301020, [(8, 0x100)], .rc, 0x0, 0xffffffff⟩,
   ⟨0x301024, [(8, 0x100)], .rc, 0x0, 0xffffffff⟩,
   ⟨0x301028, [(8, 0x100)], .rc, 0x0, 0xffffffff⟩,
   ⟨0x301040, [(8, 0x100), (2, 0x20), (4, 0x8)], .rwl, 0x0, 0xffffff⟩,
   ⟨0x301044, [(8, 0x100), (2, 0x20), (4, 0x8)], .rwl, 0x0, 0xffffff⟩,
   ⟨0x301080, [(8, 0x100)], .rw, 0x0, 0x3fffffff⟩,
   ⟨0x301084, [(8, 0x100)], .rw, 0x0, 0xffffffff⟩,
   ⟨0x301088, [(8, 0x100)], .rw, 0x0, 0xffff⟩] ++
  [⟨0x30108c, [(8, 0x100)], .rw, 0x0, 0x3fffffff⟩,
   ⟨0x301090, [(8, 0x100)], .rw, 0x0, 0x3fffffff⟩,
   ⟨0x301094, [(8, 0x100)], .rw, 0x0, 0xffffffff⟩,
   ⟨0x301098, [(8, 0x100)], .rw, 0x0, 0xffff⟩,
   ⟨0x30109c, [(8, 0x100)], .rw, 0x0, 0xff0f3f⟩,
   ⟨0x308000, [(8, 0x400), (2, 0x200), (64, 0x8)], .rw, 0x7, 0x7⟩,
   ⟨0x308004, [(8, 0x400), (2, 0x200), (64, 0x8)], .rw, 0x0, 0x3fffffff⟩,
   ⟨0x310000, [(4096, 0x20)], .rwt, 0x1, 0xff⟩,
   ⟨0x310004, [(4096, 0x20)], .rwt, 0x0, 0x8fffffff⟩,
   ⟨0x310008, [(4096, 0x20)], .rwt, 0x4000, 0xffffff⟩,
   ⟨0x31000c, [(4096, 0x20)], .ro, 0x0, 0xffffffff⟩,
   ⟨0x310010, [(4096, 0x20)], .ro, 0x0, 0xffffffff⟩,
   ⟨0x310014, [(4096, 0x20)], .ro, 0x0, 0xffffffff⟩,
   ⟨0x310018, [(4096, 0x20)], .rc, 0x0, 0xffffffff⟩,
   ⟨0x31001c, [(4096, 0x20)], .rc, 0x0, 0xffffffff⟩]

/-- The registers of the DMA block (13_dma.md). -/
def rowsDma : List RegRow :=
  [⟨0x400000, [], .rw, 0x1, 0x1⟩,
   ⟨0x400004, [], .ro, 0x0, 0x1⟩,
   ⟨0x400008, [], .w1c, 0x0, 0xf⟩,
   ⟨0x40000c, [], .rw, 0x0, 0xf⟩,
   ⟨0x400010, [], .w1c, 0x0, 0xffffffff⟩,
   ⟨0x401000, [(32, 0x100)], .rwl, 0x801, 0xff3f⟩,
   ⟨0x401004, [(32, 0x100)], .rw, 0x0, 0x7⟩,
   ⟨0x401008, [(32, 0x100)], .ro, 0x0, 0xff07⟩,
   ⟨0x401010, [(32, 0x100)], .rwl, 0x0, 0xffffffff⟩,
   ⟨0x401014, [(32, 0x100)], .rwl, 0x0, 0xffffffff⟩,
   ⟨0x401018, [(32, 0x100)], .rwl, 0x3, 0x3f⟩,
   ⟨0x40101c, [(32, 0x100)], .wo, 0x0, 0xffff⟩,
   ⟨0x401020, [(32, 0x100)], .ro, 0x0, 0xffffffff⟩,
   ⟨0x401040, [(32, 0x100), (8, 0x4)], .rw, 0x0, 0xffffffff⟩,
   ⟨0x401060, [(32, 0x100)], .wo, 0x0, 0x1⟩,
   ⟨0x401064, [(32, 0x100)], .ro, 0x0, 0xffffffff⟩,
   ⟨0x401068, [(32, 0x100)], .ro, 0x0, 0xffffffff⟩,
   ⟨0x40106c, [(32, 0x100)], .ro, 0x0, 0xffffffff⟩,
   ⟨0x401080, [(32, 0x100)], .rc, 0x0, 0xffffffff⟩,
   ⟨0x401084, [(32, 0x100)], .rc, 0x0, 0xffffffff⟩] ++
  [⟨0x401088, [(32, 0x100)], .rc, 0x0, 0xffffffff⟩]

/-- The registers of the DMC block (10_memory_controllers.md). -/
def rowsDmc : List RegRow :=
  [⟨0x500000, [(4, 0x40000)], .ro, 0x0, 0x37ffff⟩,
   ⟨0x500004, [(4, 0x40000)], .ro, 0x0, 0xff⟩,
   ⟨0x500008, [(4, 0x40000)], .rwl, 0xfa08, 0xff0f⟩,
   ⟨0x50000c, [(4, 0x40000)], .rwl, 0xa, 0xffff00ff⟩,
   ⟨0x500010, [(4, 0x40000)], .rwl, 0x2010, 0xffff⟩,
   ⟨0x500014, [(4, 0x40000)], .rwl, 0x8, 0x1f⟩,
   ⟨0x500018, [(4, 0x40000)], .w1c, 0x0, 0x7ff⟩,
   ⟨0x50001c, [(4, 0x40000)], .rw, 0x0, 0x7ff⟩,
   ⟨0x500020, [(4, 0x40000)], .ro, 0x0, 0x1ffffff⟩,
   ⟨0x500100, [(4, 0x40000), (4, 0x40)], .ro, 0x0, 0xf⟩,
   ⟨0x500104, [(4, 0x40000), (4, 0x40)], .rc, 0x0, 0xffffffff⟩,
   ⟨0x500108, [(4, 0x40000), (4, 0x40)], .rc, 0x0, 0xffffffff⟩,
   ⟨0x50010c, [(4, 0x40000), (4, 0x40)], .rc, 0x0, 0xffffffff⟩,
   ⟨0x500110, [(4, 0x40000), (4, 0x40)], .rc, 0x0, 0xffffffff⟩,
   ⟨0x500114, [(4, 0x40000), (4, 0x40)], .rc, 0x0, 0xffffffff⟩,
   ⟨0x500118, [(4, 0x40000), (4, 0x40)], .rc, 0x0, 0xffffffff⟩,
   ⟨0x50011c, [(4, 0x40000), (4, 0x40)], .rc, 0x0, 0xffffffff⟩,
   ⟨0x500120, [(4, 0x40000), (4, 0x40)], .ro, 0x0, 0x7fffff⟩,
   ⟨0x500124, [(4, 0x40000), (4, 0x40)], .ro, 0x0, 0xffff⟩,
   ⟨0x500128, [(4, 0x40000), (4, 0x40)], .rc, 0x0, 0xffff⟩] ++
  [⟨0x520000, [], .rwl, 0x0, 0x1ff⟩,
   ⟨0x520004, [], .rwl, 0x0, 0xffff⟩,
   ⟨0x520008, [], .rwl, 0x0, 0xffff⟩,
   ⟨0x52000c, [], .rwl, 0x1021, 0xfff3⟩,
   ⟨0x520010, [], .ro, 0x0, 0x1fffff⟩,
   ⟨0x520014, [], .rwl, 0x10, 0xffff⟩,
   ⟨0x520100, [(14, 0x4)], .rwl, 0x190, 0x3ffff⟩,
   ⟨0x520200, [(16, 0x10)], .rwl, 0x0, 0x1fffff⟩,
   ⟨0x520204, [(16, 0x10)], .rwl, 0x0, 0x1fffff⟩,
   ⟨0x520208, [(16, 0x10)], .rwl, 0x0, 0x3fff0007⟩]

/-- The registers of the LND block (02_landing_sensor_link.md). -/
def rowsLnd : List RegRow :=
  [⟨0x600000, [(3, 0x20000)], .rwl, 0x0, 0xffff⟩,
   ⟨0x600004, [(3, 0x20000)], .rwl, 0x0, 0xffffffff⟩,
   ⟨0x600008, [(3, 0x20000)], .rwl, 0x312, 0x3f7f⟩,
   ⟨0x60000c, [(3, 0x20000)], .rwl, 0x0, 0xff⟩,
   ⟨0x600010, [(3, 0x20000)], .rw, 0x201, 0xfff3⟩,
   ⟨0x600014, [(3, 0x20000)], .ro, 0x0, 0xffffffff⟩,
   ⟨0x600018, [(3, 0x20000)], .ro, 0x0, 0xfffff07⟩,
   ⟨0x60001c, [(3, 0x20000)], .ro, 0xffffffff, 0xffffffff⟩,
   ⟨0x600020, [(3, 0x20000)], .ro, 0x0, 0x3f3f3f3f⟩,
   ⟨0x600024, [(3, 0x20000)], .ro, 0x0, 0x3f3f3f3f⟩,
   ⟨0x600028, [(3, 0x20000)], .w1c, 0x0, 0x7ff⟩,
   ⟨0x60002c, [(3, 0x20000)], .rw, 0x0, 0x7ff⟩,
   ⟨0x600030, [(3, 0x20000)], .rwl, 0x0, 0xffffffff⟩,
   ⟨0x600034, [(3, 0x20000)], .rwl, 0x0, 0xffffffff⟩,
   ⟨0x600038, [(3, 0x20000)], .rwl, 0x0, 0xffffffff⟩,
   ⟨0x60003c, [(3, 0x20000)], .rwl, 0x0, 0xffff⟩,
   ⟨0x600040, [(3, 0x20000)], .rwl, 0x0, 0xffffffff⟩,
   ⟨0x600044, [(3, 0x20000)], .rwl, 0x0, 0xffffffff⟩,
   ⟨0x600048, [(3, 0x20000)], .rwl, 0x0, 0xffffff⟩,
   ⟨0x60004c, [(3, 0x20000)], .rwl, 0x2, 0x3f⟩] ++
  [⟨0x600050, [(3, 0x20000)], .rwl, 0x0, 0x7⟩,
   ⟨0x600060, [(3, 0x20000)], .rc, 0x0, 0xffffffff⟩,
   ⟨0x600064, [(3, 0x20000)], .rc, 0x0, 0xffffffff⟩,
   ⟨0x600068, [(3, 0x20000)], .rc, 0x0, 0xffffffff⟩,
   ⟨0x60006c, [(3, 0x20000)], .rc, 0x0, 0xffffffff⟩,
   ⟨0x600070, [(3, 0x20000)], .rc, 0x0, 0xffffffff⟩,
   ⟨0x600074, [(3, 0x20000)], .rc, 0x0, 0xffffffff⟩,
   ⟨0x600078, [(3, 0x20000)], .rc, 0x0, 0xffffffff⟩]

/-- The registers of the XCV block (12_crossing_ferry_ethernet.md). -/
def rowsXcv : List RegRow :=
  [⟨0x680000, [(4, 0x20000)], .rwl, 0x0, 0x7f⟩,
   ⟨0x680004, [(4, 0x20000)], .ro, 0x0, 0x7f07⟩,
   ⟨0x680008, [(4, 0x20000)], .rwl, 0x0, 0xff⟩,
   ⟨0x68000c, [(4, 0x20000)], .rw, 0x201, 0xfff3⟩,
   ⟨0x680010, [(4, 0x20000)], .ro, 0x0, 0xffff⟩,
   ⟨0x680014, [(4, 0x20000), (4, 0x4)], .rw, 0x2f04, 0x7fff⟩,
   ⟨0x680024, [(4, 0x20000)], .rwl, 0x84000, 0xff7fff⟩,
   ⟨0x680028, [(4, 0x20000)], .rwl, 0x64, 0xffff⟩,
   ⟨0x68002c, [(4, 0x20000)], .rwl, 0x1, 0x1⟩,
   ⟨0x680030, [(4, 0x20000)], .w1c, 0x0, 0x7ff⟩,
   ⟨0x680034, [(4, 0x20000)], .rw, 0x0, 0x7ff⟩,
   ⟨0x680038, [(4, 0x20000)], .ro, 0x0, 0xffffffff⟩,
   ⟨0x68003c, [(4, 0x20000)], .ro, 0x0, 0xffff⟩,
   ⟨0x680040, [(4, 0x20000)], .rc, 0x0, 0xffffffff⟩,
   ⟨0x680044, [(4, 0x20000)], .rc, 0x0, 0xffffffff⟩,
   ⟨0x680048, [(4, 0x20000)], .rc, 0x0, 0xffffffff⟩,
   ⟨0x68004c, [(4, 0x20000)], .rc, 0x0, 0xffffffff⟩,
   ⟨0x680050, [(4, 0x20000)], .rc, 0x0, 0xffffffff⟩,
   ⟨0x680080, [(4, 0x20000), (4, 0x4)], .ro, 0x0, 0xffffffff⟩,
   ⟨0x680400, [(4, 0x20000), (64, 0x4)], .rwl, 0x0, 0x18fff⟩] ++
  [⟨0x680500, [(4, 0x20000), (64, 0x4)], .rwl, 0x0, 0xffff8fff⟩,
   ⟨0x681000, [(4, 0x20000), (2, 0x100)], .rwl, 0x5dc0000, 0x3fff0007⟩,
   ⟨0x681004, [(4, 0x20000), (2, 0x100)], .rwl, 0x0, 0xffffffff⟩,
   ⟨0x681008, [(4, 0x20000), (2, 0x100)], .rwl, 0x0, 0xffff⟩,
   ⟨0x68100c, [(4, 0x20000), (2, 0x100)], .rwl, 0x0, 0xffffffff⟩,
   ⟨0x681010, [(4, 0x20000), (2, 0x100)], .rwl, 0x0, 0xfff⟩,
   ⟨0x681014, [(4, 0x20000), (2, 0x100)], .ro, 0x0, 0x1f⟩,
   ⟨0x681020, [(4, 0x20000), (2, 0x100), (8, 0x4)], .rwl, 0x0, 0x8fffffff⟩,
   ⟨0x681040, [(4, 0x20000), (2, 0x100)], .rc, 0x0, 0xffffffff⟩,
   ⟨0x681044, [(4, 0x20000), (2, 0x100)], .rc, 0x0, 0xffffffff⟩,
   ⟨0x681048, [(4, 0x20000), (2, 0x100)], .rc, 0x0, 0xffffffff⟩,
   ⟨0x68104c, [(4, 0x20000), (2, 0x100)], .rc, 0x0, 0xffffffff⟩,
   ⟨0x681050, [(4, 0x20000), (2, 0x100)], .rc, 0x0, 0xffffffff⟩,
   ⟨0x681054, [(4, 0x20000), (2, 0x100)], .rc, 0x0, 0xffffffff⟩,
   ⟨0x682000, [(4, 0x20000), (64, 0x80), (9, 0x4)], .rwt, 0x0, 0xffffffff⟩]

/-- The registers of the FCT block (04_facet_engines.md, 06_decode_and_concealment.md). -/
def rowsFct : List RegRow :=
  [⟨0x800000, [(5, 0x100000)], .ro, 0x70, 0xffffff7f⟩,
   ⟨0x800004, [(5, 0x100000)], .rwl, 0x0, 0xfff⟩,
   ⟨0x800008, [(5, 0x100000)], .ro, 0x0, 0xffffff⟩,
   ⟨0x80000c, [(5, 0x100000)], .ro, 0x0, 0xff⟩,
   ⟨0x800010, [(5, 0x100000)], .rc, 0x0, 0xffffffff⟩,
   ⟨0x800014, [(5, 0x100000)], .rc, 0x0, 0xffffffff⟩,
   ⟨0x800018, [(5, 0x100000)], .rc, 0x0, 0xffffffff⟩,
   ⟨0x80001c, [(5, 0x100000)], .rc, 0x0, 0xffffffff⟩,
   ⟨0x800020, [(5, 0x100000)], .rc, 0x0, 0xffffffff⟩,
   ⟨0x800024, [(5, 0x100000)], .rc, 0x0, 0xffffffff⟩,
   ⟨0x800028, [(5, 0x100000)], .rc, 0x0, 0xffffffff⟩,
   ⟨0x80002c, [(5, 0x100000)], .w1c, 0x0, 0x1f⟩,
   ⟨0x800030, [(5, 0x100000)], .rw, 0x0, 0x1f⟩,
   ⟨0x808000, [], .rwl, 0x4, 0x7⟩,
   ⟨0x808004, [], .ro, 0x0, 0x3ffffff⟩,
   ⟨0x808100, [(4, 0x40)], .rwl, 0xc40018, 0x3ffff7f⟩,
   ⟨0x808104, [(4, 0x40)], .rwl, 0x94, 0xff⟩,
   ⟨0x808108, [(4, 0x40)], .rwt, 0x0, 0xffffffff⟩,
   ⟨0x80810c, [(4, 0x40)], .rwt, 0x0, 0xffffffff⟩,
   ⟨0x808110, [(4, 0x40)], .rwt, 0x0, 0xffffffff⟩] ++
  [⟨0x808114, [(4, 0x40)], .rwt, 0x0, 0xffffffff⟩,
   ⟨0x808118, [(4, 0x40)], .rwt, 0x0, 0xffffffff⟩,
   ⟨0x80811c, [(4, 0x40)], .rwt, 0x1000, 0xffff⟩,
   ⟨0x808120, [(4, 0x40)], .rwl, 0x0, 0xfff⟩,
   ⟨0x808124, [(4, 0x40)], .rwl, 0x0, 0x1ff⟩,
   ⟨0x808128, [(4, 0x40)], .rwt, 0x0, 0xffffffff⟩,
   ⟨0x80812c, [(4, 0x40)], .ro, 0x0, 0xffffff⟩,
   ⟨0x808130, [(4, 0x40)], .ro, 0x0, 0xffffffff⟩,
   ⟨0x808134, [(4, 0x40)], .rc, 0x0, 0xffffffff⟩,
   ⟨0x808138, [(4, 0x40)], .rc, 0x0, 0xffffffff⟩,
   ⟨0x80813c, [(4, 0x40)], .rwl, 0x1, 0x3f7f⟩,
   ⟨0x809000, [], .w1c, 0x0, 0x3f⟩,
   ⟨0x809004, [], .rw, 0x0, 0x3f⟩,
   ⟨0x809008, [], .ro, 0x0, 0x3⟩,
   ⟨0x809100, [(4, 0x40)], .rwl, 0x400022a, 0x7ffffff⟩,
   ⟨0x809104, [(4, 0x40)], .rwl, 0x0, 0xffffffff⟩,
   ⟨0x809108, [(4, 0x40)], .rwl, 0x0, 0xfff0fff⟩,
   ⟨0x80910c, [(4, 0x40)], .rwl, 0x0, 0xffffffff⟩,
   ⟨0x809110, [(4, 0x40)], .rwl, 0x0, 0xffffffff⟩,
   ⟨0x809114, [(4, 0x40)], .rwl, 0x2, 0xfffff0f⟩] ++
  [⟨0x809118, [(4, 0x40)], .rwl, 0x0, 0xffffffff⟩,
   ⟨0x80911c, [(4, 0x40)], .rwl, 0x0, 0xffffffff⟩,
   ⟨0x809120, [(4, 0x40)], .rwl, 0x2, 0xfffff0f⟩,
   ⟨0x809124, [(4, 0x40)], .ro, 0x0, 0xffff000f⟩,
   ⟨0x809128, [(4, 0x40)], .ro, 0x0, 0xffffffff⟩,
   ⟨0x80912c, [(4, 0x40)], .rc, 0x0, 0xffffffff⟩,
   ⟨0x809130, [(4, 0x40)], .rc, 0x0, 0xffffffff⟩,
   ⟨0x809134, [(4, 0x40)], .rc, 0x0, 0xffffffff⟩,
   ⟨0x809138, [(4, 0x40)], .rc, 0x0, 0xffffffff⟩,
   ⟨0x80913c, [(4, 0x40)], .rc, 0x0, 0xffffffff⟩]

/-- The registers of the COD block (05_codec_engines.md, 06_decode_and_concealment.md). -/
def rowsCod : List RegRow :=
  [⟨0xd00000, [(2, 0x100000)], .ro, 0xff00, 0xffffff1f⟩,
   ⟨0xd00004, [(2, 0x100000)], .ro, 0x0, 0x3ff⟩,
   ⟨0xd00010, [(2, 0x100000)], .rc, 0x0, 0xffffffff⟩,
   ⟨0xd00014, [(2, 0x100000)], .rc, 0x0, 0xffffffff⟩,
   ⟨0xd00018, [(2, 0x100000)], .rc, 0x0, 0xffffffff⟩,
   ⟨0xd0001c, [(2, 0x100000)], .rc, 0x0, 0xffffffff⟩,
   ⟨0xd00020, [(2, 0x100000)], .rc, 0x0, 0xffffffff⟩,
   ⟨0xd00024, [(2, 0x100000)], .rc, 0x0, 0xffffffff⟩,
   ⟨0xd00028, [(2, 0x100000)], .rc, 0x0, 0xffffffff⟩,
   ⟨0xd0002c, [(2, 0x100000)], .w1c, 0x0, 0x3f⟩,
   ⟨0xd00030, [(2, 0x100000)], .rw, 0x0, 0x3f⟩,
   ⟨0xd08000, [], .rwl, 0x2, 0x3⟩,
   ⟨0xd08004, [], .ro, 0x0, 0x3fffff⟩,
   ⟨0xd08100, [(64, 0x40)], .rwl, 0x200, 0x3fffff⟩,
   ⟨0xd08104, [(64, 0x40)], .rwl, 0x0, 0xffffffff⟩,
   ⟨0xd08108, [(64, 0x40)], .rwl, 0xc9c, 0xfff⟩,
   ⟨0xd0810c, [(64, 0x40)], .rwl, 0x1, 0x3ff00ff⟩,
   ⟨0xd08110, [(64, 0x40)], .rwt, 0x130, 0x1ff77⟩,
   ⟨0xd08114, [(64, 0x40)], .rwt, 0x0, 0xffffff⟩,
   ⟨0xd08118, [(64, 0x40)], .rwt, 0x0, 0xfffffff⟩] ++
  [⟨0xd0811c, [(64, 0x40)], .rwt, 0x330020, 0xff3f3f3f⟩,
   ⟨0xd08120, [(64, 0x40)], .rwt, 0x0, 0x3ffffff⟩,
   ⟨0xd08124, [(64, 0x40)], .rwl, 0x0, 0xfff3fff⟩,
   ⟨0xd08128, [(64, 0x40)], .rwl, 0x0, 0xffffffff⟩,
   ⟨0xd0812c, [(64, 0x40)], .rwl, 0x0, 0xffffffff⟩,
   ⟨0xd08130, [(64, 0x40)], .rwl, 0x0, 0x1fff⟩,
   ⟨0xd08134, [(64, 0x40)], .rwt, 0x0, 0xffffffff⟩,
   ⟨0xd08138, [(64, 0x40)], .ro, 0x0, 0xffff01ff⟩,
   ⟨0xd0813c, [(64, 0x40)], .ro, 0x0, 0xffffffff⟩,
   ⟨0xd09100, [], .w1c, 0x0, 0x7f⟩,
   ⟨0xd09104, [], .rw, 0x0, 0x7f⟩,
   ⟨0xd09108, [], .ro, 0x0, 0x3f⟩,
   ⟨0xd09200, [(64, 0x40)], .rwl, 0x802, 0xffffff1f⟩,
   ⟨0xd09204, [(64, 0x40)], .rwl, 0x0, 0xffffffff⟩,
   ⟨0xd09208, [(64, 0x40)], .rwl, 0x0, 0xffffffff⟩,
   ⟨0xd0920c, [(64, 0x40)], .rwl, 0x2, 0xfffff0f⟩,
   ⟨0xd09210, [(64, 0x40)], .ro, 0x0, 0xffff001f⟩,
   ⟨0xd09214, [(64, 0x40)], .rc, 0x0, 0xffffffff⟩,
   ⟨0xd09218, [(64, 0x40)], .rc, 0x0, 0xffffffff⟩,
   ⟨0xd0921c, [(64, 0x40)], .rc, 0x0, 0xffffffff⟩] ++
  [⟨0xd09220, [(64, 0x40)], .rc, 0x0, 0xffffffff⟩,
   ⟨0xd09224, [(64, 0x40)], .rc, 0x0, 0xffffffff⟩]

/-- The rows of the block that holds a BAR0 offset (R14). -/
def rowsAt (a : Nat) : List RegRow :=
  if a < 0x10000 then rowsGlb else
  if a < 0x20000 then rowsPwr else
  if a < 0x30000 then rowsFlt else
  if a < 0x40000 then rowsIc else
  if a < 0x50000 then rowsHst else
  if a < 0x60000 then rowsBoot else
  if a < 0x80000 then rowsPtp else
  if a < 0x100000 then rowsSeq else
  if a < 0x200000 then rowsQf else
  if a < 0x300000 then rowsBp else
  if a < 0x400000 then rowsSch else
  if a < 0x500000 then rowsDma else
  if a < 0x600000 then rowsDmc else
  if a < 0x680000 then rowsLnd else
  if a < 0x800000 then rowsXcv else
  if a < 0xd00000 then rowsFct else
  if a < 0xf00000 then rowsCod else
  []

/-- Whether an offset from a row's base is one of its repetitions, the widest stride first. -/
def coversOff : List (Nat × Nat) → Nat → Bool
  | [], off => off == 0
  | (n, st) :: rest, off => off / st < n && coversOff rest (off % st)

def RegRow.covers (r : RegRow) (a : Nat) : Bool := r.base ≤ a && coversOff r.ins (a - r.base)

/-- The row of the register at a BAR0 offset; none is reserved space (R13). -/
def regRow (a : Nat) : Option RegRow := (rowsAt a).find? (·.covers a)

/-- BOOT_KEY_ID: bytes 0 to 3 of the fused key hash, byte 0 lowest (R422). -/
def keyId (f : Fuse) : Nat :=
  (f.keyHash.take 4).foldr (fun b n => b.toNat + 256 * n) 0

/-- The values of registers that fuses or the grade fix (R3, R107, R167, R370, R395). -/
def fusedReset (f : Fuse) (a : Nat) : Option Nat :=
  if a = Adr.GLB_GRADE then some ((if f.m then 1 else 0) + (if f.ind then 4 else 0))
  else if a = Adr.GLB_UNITS then some (if f.m then 0xCDA7 else 0x3FFFF)
  else if a = Adr.FCT_SLOTS then some (if f.m then 0x97FC8 else 0x127688)
  else if a = Adr.COD_GLB_STAT then some (if f.m then 2 else 6)
  else if a = Adr.HST_PCIE_ID then some (f.vendor.toNat + (if f.m then 0x9B020000 else 0x9B010000))
  else if a = Adr.BOOT_KEY_ID then some (keyId f)
  else if 0x34800 ≤ a ∧ a < 0x34810 then some (0x400 + 0x11 * ((a - 0x34800) / 4))
  else if 0x34810 ≤ a ∧ a < 0x34820 then some (0x447 + 0x10 * ((a - 0x34810) / 4))
  else none

/-- The reset value of the register at an offset: 0 for reserved space. -/
def regReset (f : Fuse) (a : Nat) : Word :=
  match fusedReset f a with
  | some v => BitVec.ofNat 32 v
  | none => match regRow a with
    | some r => BitVec.ofNat 32 r.reset
    | none => 0

def regAcc (a : Nat) : Option Acc := (regRow a).map (·.acc)

/-- The non-reserved bits of a register (R10). -/
def regMask (a : Nat) : Word := ((regRow a).map fun r => BitVec.ofNat 32 r.mask).getD 0

end Sys2Proof.Machine
end

