-- ==== Sys2Proof/Machine/Ops.lean ====
section
/-! DEFINITION. The named operations over the register map, the sparse tables of the state, memory bytes, and bit fields.
Every register is read and written through them. -/

namespace Sys2Proof.Machine

/-! ### Sparse tables -/

/-- The entry of a sparse table under a key. -/
def tget? {α : Type} : List (Nat × α) → Nat → Option α
  | [], _ => none
  | (k, v) :: t, a => if a = k then some v else tget? t a

/-- The entry under a key, or the value of an absent one. -/
def tget {α : Type} (d : α) (t : List (Nat × α)) (a : Nat) : α := (tget? t a).getD d

/-- A table without one key. -/
def tdel {α : Type} : List (Nat × α) → Nat → List (Nat × α)
  | [], _ => []
  | (k, v) :: t, a => if a = k then tdel t a else (k, v) :: tdel t a

/-- Insertion at the place that keeps the keys rising; the key is not in the table. -/
def tins {α : Type} (a : Nat) (x : α) : List (Nat × α) → List (Nat × α)
  | [] => [(a, x)]
  | (k, v) :: t => if a < k then (a, x) :: (k, v) :: t else (k, v) :: tins a x t

/-- A table with one key set. -/
def tput {α : Type} (t : List (Nat × α)) (a : Nat) (x : α) : List (Nat × α) := tins a x (tdel t a)

/-- A table with one key set, where an entry equal to the default is not listed. -/
def tset {α : Type} [DecidableEq α] (d : α) (t : List (Nat × α)) (a : Nat) (x : α) : List (Nat × α) :=
  if x = d then tdel t a else tput t a x

/-- The keys of a table rise strictly. -/
def tsorted {α : Type} : List (Nat × α) → Bool
  | [] => true
  | [_] => true
  | (a, _) :: (b, y) :: t => a < b && tsorted ((b, y) :: t)

/-! ### Bit fields and bytes -/

/-- Bits [lo + w − 1 : lo] of a register value. -/
def bits (v : Word) (lo w : Nat) : Nat := v.toNat / 2 ^ lo % 2 ^ w

def bit (v : Word) (n : Nat) : Bool := bits v n 1 = 1

/-- A register value with a field replaced. -/
def putBits (v : Word) (lo w x : Nat) : Word :=
  BitVec.ofNat 32 (v.toNat - bits v lo w * 2 ^ lo + x % 2 ^ w * 2 ^ lo)

def b2n (b : Bool) : Nat := if b then 1 else 0

/-- A count that stops at a limit. -/
def sat (lim n : Nat) : Nat := if n < lim then n else lim

/-- The k low bytes of a number, lowest first (little-endian). -/
def leBytes : Nat → Nat → List Byte
  | 0, _ => []
  | k + 1, n => BitVec.ofNat 8 n :: leBytes k (n / 256)

/-- The number that bytes spell, lowest first. -/
def leNat : List Byte → Nat
  | [] => 0
  | b :: t => b.toNat + 256 * leNat t

/-- The k low bytes of a number, highest first (big-endian). -/
def beBytes (k n : Nat) : List Byte := (leBytes k n).reverse

def beNat (l : List Byte) : Nat := leNat l.reverse

/-- Two's complement value of an n-bit number. -/
def sext (n x : Nat) : Int := if x % 2 ^ n < 2 ^ (n - 1) then (x % 2 ^ n : Nat) else (x % 2 ^ n : Nat) - (2 ^ n : Nat)

/-- The n-bit two's complement of an integer. -/
def toBits (n : Nat) (x : Int) : Nat := (x % (2 ^ n : Nat)).toNat

/-- Repeats an operation on a state over a list. -/
def iter {α : Type} (l : List α) (f : α → State → State) (s : State) : State := l.foldl (fun s a => f a s) s

/-- Applies an operation where a condition holds. -/
def when_ (c : Bool) (f : State → State) (s : State) : State := if c then f s else s

/-! ### Response codes (R15) -/

def Code.done : Nat := 0x00
def Code.badOpcode : Nat := 0x01
def Code.badTarget : Nat := 0x02
def Code.outOfRange : Nat := 0x03
def Code.notNow : Nat := 0x04
def Code.inUse : Nat := 0x05
def Code.notOwner : Nat := 0x06
def Code.doubleFree : Nat := 0x07
def Code.quotaExceeded : Nat := 0x08
def Code.noCapacity : Nat := 0x09
def Code.domainOff : Nat := 0x0A
def Code.locked : Nat := 0x0B
def Code.authFail : Nat := 0x0C
def Code.superseded : Nat := 0x0D
def Code.timeout : Nat := 0x0E
def Code.aborted : Nat := 0x0F
def Code.poolEmpty : Nat := 0x10
def Code.configInvalid : Nat := 0x11
def Code.tooLong : Nat := 0x12
def Code.recordLag : Nat := 0x13

/-! ### Registers -/

/-- The value a register holds in the map: the last value written or latched, or its reset value. -/
def State.reg (s : State) (a : Nat) : Word := (tget? s.regs a).getD (regReset s.fuse a)

/-- The same for a register whose reset value is 0. -/
def State.z (s : State) (a : Nat) : Word := tget 0 s.regs a

/-- The value of an RWT register that is in force (R12). -/
def State.inForce (s : State) (a : Nat) : Word := (tget? s.force a).getD (regReset s.fuse a)

def State.fld (s : State) (a lo w : Nat) : Nat := bits (s.reg a) lo w

def State.flag (s : State) (a n : Nat) : Bool := bit (s.reg a) n

/-- Sets a register in the map. -/
def State.setReg (s : State) (a : Nat) (v : Word) : State :=
  { s with regs := tset (regReset s.fuse a) s.regs a v }

def State.setRegN (s : State) (a n : Nat) : State := s.setReg a (BitVec.ofNat 32 n)

def State.setFld (s : State) (a lo w x : Nat) : State := s.setReg a (putBits (s.reg a) lo w x)

/-- Adds to a counter register that saturates at 0xFFFF_FFFF. -/
def State.bumpBy (s : State) (a n : Nat) : State := s.setRegN a (sat 0xFFFFFFFF ((s.reg a).toNat + n))

def State.bump (s : State) (a : Nat) : State := s.bumpBy a 1

/-- Adds to a counter field that saturates at its greatest value. -/
def State.bumpFld (s : State) (a lo w n : Nat) : State := s.setFld a lo w (sat (2 ^ w - 1) (s.fld a lo w + n))

/-- Raises the event of bit n in an event register. -/
def State.raise (s : State) (a n : Nat) : State := s.setReg a (s.reg a ||| BitVec.ofNat 32 (2 ^ n))

/-- A 64-bit value from a _LO/_HI pair of registers (R11). -/
def State.pair (s : State) (lo hi : Nat) : Nat := (s.reg lo).toNat + 2 ^ 32 * (s.reg hi).toNat

/-- The least of a list of numbers. -/
def least? : List Nat → Option Nat
  | [] => none
  | x :: t => match least? t with
    | none => some x
    | some y => some (if y < x then y else x)

/-! ### Grades and domains (R4, R5, R14) -/

/-- Numbers of units fitted. -/
def State.nFct (s : State) : Nat := if s.fuse.m then 3 else 5
def State.nCod (s : State) : Nat := if s.fuse.m then 1 else 2
def State.nLnd (s : State) : Nat := if s.fuse.m then 2 else 3
def State.nXcv (s : State) : Nat := if s.fuse.m then 2 else 4
def State.nDmc (s : State) : Nat := if s.fuse.m then 2 else 4
def State.nCtx (s : State) : Nat := if s.fuse.m then 32 else 64
def State.nDma (s : State) : Nat := if s.fuse.m then 16 else 32

/-- Whether a power domain is present (R4, R380). -/
def State.hasDom (s : State) (d : Nat) : Bool :=
  d < 22 && !(s.fuse.m && (d = 6 || d = 7 || d = 9 || d = 12 || d = 13 || d = 16 || d = 19 || d = 20))

def Domain.up : Domain := ⟨.on, .stable, .on, none, none, 0, 0, false⟩

def State.domain (s : State) (d : Nat) : Domain := tget Domain.up s.dom d

def State.setDomain (s : State) (d : Nat) (x : Domain) : State := { s with dom := tset Domain.up s.dom d x }

/-- Whether host access reaches the domain: it is ON and not from ENTERING to the end of EXITING (R427). -/
def State.domUp (s : State) (d : Nat) : Bool :=
  (s.domain d).st = .on && ((s.domain d).phase = .stable || (s.domain d).phase = .draining)

/-- Whether a unit of the domain takes new work: ON and not draining (R205, R427). -/
def State.domRuns (s : State) (d : Nat) : Bool := (s.domain d).st = .on && (s.domain d).phase = .stable

/-- The power domain of the register at a BAR0 offset (R14, R134, R167, R193, R194, R297, R393, R397): 0 AON, 1 SEQ, 2 FAB
and so on. -/
def domOf (a : Nat) : Nat :=
  if a < 0x30000 then 0
  else if a < 0x40000 then (if 0x3C000 ≤ a ∧ a < 0x3E000 then 21 else 2)
  else if a < 0x50000 then 2
  else if a < 0x80000 then 0
  else if a < 0x100000 then 1
  else if a < 0x500000 then 2
  else if a < 0x600000 then (if 0x520000 ≤ a ∧ a < 0x540000 then 2 else 10 + (a - 0x500000) / 0x40000)
  else if a < 0x680000 then 14 + (a - 0x600000) / 0x20000
  else if a < 0x800000 then 17 + (a - 0x680000) / 0x20000
  else if a < 0xD00000 then (if 0x808000 ≤ a ∧ a < 0x810000 then 1 else 3 + (a - 0x800000) / 0x100000)
  else (if 0xD08000 ≤ a ∧ a < 0xD10000 then 1 else 8 + (a - 0xD00000) / 0x100000)

/-- Whether an offset lies in the register block of an absent unit (R5, R14): a read returns 0, a write is discarded. -/
def State.absent (s : State) (a : Nat) : Bool :=
  s.fuse.m && (
    (0x580000 ≤ a && a < 0x600000) || (0x640000 ≤ a && a < 0x660000) || (0x6C0000 ≤ a && a < 0x700000) ||
    (0xB00000 ≤ a && a < 0xD00000) || (0xE00000 ≤ a && a < 0xF00000) ||
    (0x402000 ≤ a && a < 0x403000) || (0x301400 ≤ a && a < 0x301800) || (0x309000 ≤ a && a < 0x30A000) || (0xD08900 ≤ a && a < 0xD09100) || (0xD09A00 ≤ a && a < 0xD0A200))

/-! ### Memory and the free values -/

/-- Reads one byte of a canonical byte memory whose unlisted bytes read d. -/
def memGet (d : Byte) (m : List Host.Cell) (a : Nat) : Byte := tget d m a

/-- Writes one byte; writing the value of an unlisted byte removes the entry. -/
def memPut (d : Byte) (m : List Host.Cell) (a : Nat) (b : Byte) : List Host.Cell := tset d m a b

def memRead (d : Byte) (m : List Host.Cell) (a : Nat) : Nat → List Byte
  | 0 => []
  | n + 1 => memGet d m a :: memRead d m (a + 1) n

def memWrite (d : Byte) (m : List Host.Cell) (a : Nat) : List Byte → List Host.Cell
  | [] => m
  | b :: t => memWrite d (memPut d m a b) (a + 1) t

/-- The canonical form of a byte memory: addresses rise strictly and no entry is the unlisted byte. -/
def memWf (d : Byte) (m : List Host.Cell) : Bool := tsorted m && m.all fun c => c.2 != d

/-- A byte that the spec calls undefined (log 2). -/
def State.freshByte (s : State) : Byte × State := (Config.freeByte s.freeCtr, { s with freeCtr := s.freeCtr + 1 })

def State.freshWord (s : State) : Word × State := (Config.freeWord s.freeCtr, { s with freeCtr := s.freeCtr + 1 })

/-! ### Host memory (R38) -/

/-- The read-back of a FENCE_HOST, of 4 bytes at the address written last; without a write since the last one there is none to
make. `back` says that it returns before the command ends, which that of the device's own fences does (R38, R391, log 43). -/
def State.readBack (s : State) (back : Bool := true) : State :=
  match s.hostOpen with
  | none => s
  | some a => { s with sent := s.sent ++ [.hostRead a 4 false], hostOpen := if back then none else some a }

/-- A device write to host memory, which the next FENCE_HOST has to confirm. -/
def State.hostSend (s : State) (a : Nat) (l : List Byte) (noSnoop relaxed : Bool) : State :=
  { s with sent := s.sent ++ [.hostWrite a l noSnoop relaxed], hostOpen := some a }

end Sys2Proof.Machine
end

