-- ==== Sys2Proof/Machine/FacetCodec.lean ====
section
/-! DEFINITION. The Facet bitstream (R70 to R103) and the codings of a segment row that the engines choose among (R114 to
R116, R122, R126): bits, entropy state, prediction, transform, one block and one segment row in both directions. -/

namespace Sys2Proof.Machine

/-! ### Bits and CRCs -/

/-- u(n), most significant bit first (R71). -/
def uBits : Nat → Nat → List Bool
  | 0, _ => []
  | n + 1, v => (v / 2 ^ n % 2 = 1) :: uBits n v

/-- Reads u(n); none past the end (R103). -/
def getBits : Nat → List Bool → Option (Nat × List Bool)
  | 0, l => some (0, l)
  | _ + 1, [] => none
  | n + 1, b :: t => (getBits n t).map fun r => (b2n b * 2 ^ n + r.1, r.2)

/-- Bits of bytes, bit 7 first (R71). -/
def bytesBits (l : List Byte) : List Bool := l.flatMap fun b => uBits 8 b.toNat

/-- Packs bits into bytes, filling the last with zero bits. -/
def bitsBytes : Nat → List Bool → List Byte
  | 0, _ => []
  | _, [] => []
  | n + 1, l =>
    let h := l.take 8
    BitVec.ofNat 8 ((h ++ List.replicate (8 - h.length) false).foldl (fun v b => 2 * v + b2n b) 0) :: bitsBytes n (l.drop 8)

def packBits (l : List Bool) : List Byte := bitsBytes (l.length / 8 + 1) l

/-- One byte into a bit-reflected CRC-32C register (R83). -/
def crc32cByte (c : Nat) (b : Byte) : Nat :=
  (List.range 8).foldl (fun c _ => if c % 2 = 1 then (c / 2) ^^^ 0x82F63B78 else c / 2) (c ^^^ b.toNat)

/-- CRC-32C of R83. -/
def crc32c (l : List Byte) : Nat := (l.foldl crc32cByte 0xFFFFFFFF) ^^^ 0xFFFFFFFF

/-! ### Parameters of a picture -/

/-- What the coding of a picture depends on (R79): mode 0 LOSSLESS, 1 NEAR, 2 FIXED; depth; neighbour spacing; E; the noise
table; whether the sensor is monochrome. -/
structure PicP where
  mode : Nat
  n : Nat
  s : Nat
  e : Nat
  nt : List Nat
  mono : Bool
  deriving DecidableEq, Repr

def PicP.mid (p : PicP) : Nat := 2 ^ (p.n - 1)
def PicP.top (p : PicP) : Nat := 2 ^ p.n - 1
def PicP.clip (p : PicP) (v : Int) : Nat := if v < 0 then 0 else if (p.top : Int) < v then p.top else v.toNat

/-- Qs(q) of R90. -/
def qStep (q : Nat) : Nat := (([16, 18, 20, 23, 25, 29] : List Nat)[q % 6]?).getD 16 * 2 ^ (q / 6)

/-- qb of R91 for level class c. -/
def PicP.qb (p : PicP) (c qi : Nat) : Nat := min 63 (qi + p.nt.getD c 0)

/-- The error bound of a PRED block (R92). -/
def PicP.eb (p : PicP) (c qi : Nat) : Nat :=
  if p.mode = 0 then 0
  else if p.mode = 1 then min p.e (qStep (p.nt.getD c 0) / 32)
  else qStep (p.qb c qi) / 32

/-- Number of bits without leading zeros (R72). -/
def bitlen (v : Nat) : Nat := if v = 0 then 0 else v.log2 + 1

/-! ### Entropy state (R87, R96, R99) -/

structure Ent where
  /-- A and C of the nine contexts. -/
  ctx : List (Nat × Nat)
  kd : Nat
  kn : Nat
  kr : Nat
  kl : Nat
  dc : List Int
  deriving DecidableEq, Repr

/-- The state at the start of each segment row (R87). -/
def Ent.reset (p : PicP) : Ent := ⟨List.replicate 9 (2 ^ (p.n - 6), 1), 3, 2, 0, 0, [0, 0, 0, 0]⟩

/-- The order k of a context (R96 step 1). -/
def riceK (n : Nat) (ac : Nat × Nat) : Nat := ((List.range n).find? fun k => ac.1 ≤ ac.2 * 2 ^ k).getD n

/-- The update of a context (R96 step 5). -/
def riceUp (ac : Nat × Nat) (m : Nat) : Nat × Nat :=
  if ac.2 + 1 = 64 then ((ac.1 + m) / 2, 32) else (ac.1 + m, ac.2 + 1)

/-- Residual code of m under k (R97). -/
def ricePut (n k m : Nat) : List Bool :=
  if m / 2 ^ k < 24 then List.replicate (m / 2 ^ k) false ++ true :: uBits k (m % 2 ^ k)
  else List.replicate 24 false ++ uBits (n + 1) m

/-- Counts leading zeros up to a limit and drops them with the one bit that ends them. -/
def leadZeros (lim : Nat) : Nat → List Bool → Option (Nat × List Bool)
  | _, [] => none
  | u, true :: t => some (u, t)
  | u, false :: t => if lim ≤ u + 1 then some (u + 1, t) else leadZeros lim (u + 1) t

/-- Reads a residual code (R97). -/
def riceGet (n k : Nat) (l : List Bool) : Option (Nat × List Bool) :=
  (leadZeros 24 0 l).bind fun r =>
    if r.1 = 24 then getBits (n + 1) r.2 else (getBits k r.2).map fun g => (r.1 * 2 ^ k + g.1, g.2)

def unmap (m : Nat) : Int := if m % 2 = 0 then (m / 2 : Nat) else -((m + 1) / 2 : Nat)
def mapq (q : Int) : Nat := if 0 ≤ q then (2 * q).toNat else (-2 * q - 1).toNat

/-- EG(k) of v (R99). -/
def egPut (k v : Nat) : List Bool :=
  let t := v + 2 ^ k
  List.replicate (bitlen t - k - 1) false ++ uBits (bitlen t) t

/-- The order after a code of value v (R99). -/
def egUp (k v : Nat) : Nat := if 2 ≤ v / 2 ^ k then min (k + 1) 15 else if 0 < k ∧ v / 2 ^ (k - 1) = 0 then k - 1 else k

def egGet (k : Nat) (l : List Bool) : Option (Nat × List Bool) :=
  (leadZeros 33 0 l).bind fun r =>
    if 32 < r.1 then none
    else (getBits (r.1 + k) r.2).map fun g => (2 ^ (r.1 + k) + g.1 - 2 ^ k, g.2)

/-! ### Samples around a block -/

/-- The reconstruction that a block row is coded against: the last two photosite rows above it (none in the band's first
block row), and its own 16 rows as far as they are coded. -/
structure Rec where
  above : Option (List Nat × List Nat)
  cur : List (List Nat)
  deriving DecidableEq, Repr

def Rec.start (above : Option (List Nat × List Nat)) : Rec := ⟨above, List.replicate 16 []⟩

def nth (l : List Nat) (i : Nat) : Nat := l.getD i 0

/-- The level class of the next block (R89). -/
def Rec.level (p : PicP) (r : Rec) : Nat :=
  let x0 := ((r.cur.headD []).length)
  let l := match r.above with
    | some (_, last) => (((last.drop x0).take 16).foldl (· + ·) 0 + 8) / 16
    | none => if x0 = 0 then p.mid else ((r.cur.map fun row => nth row (x0 - 1)).foldl (· + ·) 0 + 8) / 16
  l / 2 ^ (p.n - 4)

/-- The row s photosites above row yy of the block, where there is one. `new` holds the block's rows coded so far, each
with what lies to its left. -/
def upRow (p : PicP) (r : Rec) (new : List (List Nat)) (yy : Nat) : Option (List Nat) :=
  if p.s ≤ yy then new[yy - p.s]?
  else r.above.map fun ab => if p.s = 1 then ab.2 else if yy = 0 then ab.1 else ab.2

def med (a b c : Nat) : Nat := if max a b ≤ c then min a b else if c ≤ min a b then max a b else a + b - c

/-- Prediction and context of the sample after `row` (R94, R95). -/
def predict (p : PicP) (up : Option (List Nat)) (row : List Nat) : Nat × Nat :=
  let x := row.length
  match up with
  | none => (if x < p.s then p.mid else nth row (x - p.s), 8)
  | some u =>
    if x < p.s then (nth u x, 8)
    else
      let a := nth row (x - p.s)
      let b := nth u x
      let c := nth u (x - p.s)
      let d (i j : Nat) : Nat := max i j - min i j
      let g := (d a c + d b c) / 2 ^ (p.n - 10)
      (med a b c, if g = 0 then 0 else min 7 (bitlen g))

/-! ### PRED (R93 to R97) -/

/-- Decodes the 16 samples of one row of a PRED block. -/
def predRowGet (p : PicP) (w : Nat) (up : Option (List Nat)) :
    Nat → Ent → List Nat → List Bool → Option (Ent × List Nat × List Bool)
  | 0, en, row, l => some (en, row, l)
  | k + 1, en, row, l =>
    let pc := predict p up row
    let ac := en.ctx.getD pc.2 (0, 1)
    (riceGet p.n (riceK p.n ac) l).bind fun g =>
      predRowGet p w up k { en with ctx := en.ctx.set pc.2 (riceUp ac g.1) }
        (row ++ [p.clip (pc.1 + unmap g.1 * w)]) g.2

def predGet (p : PicP) (eb : Nat) (r : Rec) :
    List (Nat × List Nat) → Ent → List (List Nat) → List Bool → Option (Ent × List (List Nat) × List Bool)
  | [], en, new, l => some (en, new, l)
  | (yy, row) :: t, en, new, l =>
    (predRowGet p (2 * eb + 1) (upRow p r new yy) 16 en row l).bind fun g => predGet p eb r t g.1 (new ++ [g.2.1]) g.2.2

/-- The quantiser of R97: in LOSSLESS eb is 0 and it is exact. -/
def quant (eb : Nat) (d : Int) : Int :=
  if 0 ≤ d then ((d + eb) / (2 * eb + 1 : Nat)) else -((-d + eb) / (2 * eb + 1 : Nat))

def predRowPut (p : PicP) (eb : Nat) (up : Option (List Nat)) :
    List Nat → Ent → List Nat → List Bool → Ent × List Nat × List Bool
  | [], en, row, out => (en, row, out)
  | x :: t, en, row, out =>
    let pc := predict p up row
    let ac := en.ctx.getD pc.2 (0, 1)
    let q := quant eb ((x : Int) - pc.1)
    let m := mapq q
    predRowPut p eb up t { en with ctx := en.ctx.set pc.2 (riceUp ac m) }
      (row ++ [p.clip (pc.1 + q * (2 * eb + 1 : Nat))]) (out ++ ricePut p.n (riceK p.n ac) m)

def predPut (p : PicP) (eb : Nat) (r : Rec) :
    List (Nat × List Nat × List Nat) → Ent → List (List Nat) → List Bool → Ent × List (List Nat) × List Bool
  | [], en, new, out => (en, new, out)
  | (yy, row, xs) :: t, en, new, out =>
    let g := predRowPut p eb (upRow p r new yy) xs en row []
    predPut p eb r t g.1 (new ++ [g.2.1]) (out ++ g.2.2)

/-! ### Planes (R88) -/

/-- Plane and element of the photosite (yy, xx) of a block. -/
def planeOf (mono : Bool) (yy xx : Nat) : Nat × Nat × Nat :=
  if mono then (2 * (yy / 8) + xx / 8, yy % 8, xx % 8) else (2 * (yy % 2) + xx % 2, yy / 2, xx / 2)

/-- Photosite of element (i, j) of plane p. -/
def siteOf (mono : Bool) (p i j : Nat) : Nat × Nat :=
  if mono then (8 * (p / 2) + i, 8 * (p % 2) + j) else (2 * i + p / 2, 2 * j + p % 2)

/-- The 64 samples of a plane of a block given as 16 rows of 16. -/
def planeOfBlock (mono : Bool) (blk : List (List Nat)) (p : Nat) : List Nat :=
  (List.range 8).flatMap fun i => (List.range 8).map fun j =>
    nth (blk.getD (siteOf mono p i j).1 []) (siteOf mono p i j).2

/-- A block from its four planes of 64 samples. -/
def blockOfPlanes (mono : Bool) (pl : List (List Nat)) : List (List Nat) :=
  (List.range 16).map fun yy => (List.range 16).map fun xx =>
    let q := planeOf mono yy xx
    nth (pl.getD q.1 []) (8 * q.2.1 + q.2.2)

/-! ### XFRM (R98 to R101) -/

/-- The matrix T of R101. -/
def tMat : List (List Int) :=
  [[64, 64, 64, 64, 64, 64, 64, 64], [89, 75, 50, 18, -18, -50, -75, -89], [83, 36, -36, -83, -83, -36, 36, 83],
   [75, -18, -89, -50, 50, 89, 18, -75], [64, -64, -64, 64, 64, -64, -64, 64], [50, -89, 18, 75, -75, -18, 89, -50],
   [36, -83, 83, -36, -36, 83, -83, 36], [18, -50, 75, -89, 89, -75, 50, -18]]

def tAt (k n : Nat) : Int := (tMat.getD k []).getD n 0

/-- Scan position of the cell in row u and column v, by 8u + v (R100). -/
def scanCell : List Nat :=
  [0, 1, 5, 6, 14, 15, 27, 28, 2, 4, 7, 13, 16, 26, 29, 42, 3, 8, 12, 17, 25, 30, 41, 43, 9, 11, 18, 24, 31, 40, 44, 53,
   10, 19, 23, 32, 39, 45, 52, 54, 20, 22, 33, 38, 46, 51, 55, 60, 21, 34, 37, 47, 50, 56, 59, 61,
   35, 36, 48, 49, 57, 58, 62, 63]

def at64 (l : List Int) (i : Nat) : Int := l.getD i 0

/-- Levels in scan order to levels by cell. -/
def unscan (lev : List Int) : List Int := scanCell.map fun n => at64 lev n

/-- Coefficients by cell to scan order. -/
def toScan (c : List Int) : List Int :=
  (List.range 64).map fun n => at64 c ((scanCell.findIdx? (· = n)).getD 0)

def sum8 (f : Nat → Int) : Int := (List.range 8).foldl (fun a i => a + f i) 0

/-- The plane reconstructed from its levels by cell (R101). -/
def inverse (p : PicP) (qs : Nat) (lev : List Int) : List Nat :=
  let cq := lev.map (· * (qs : Int))
  let g := (List.range 64).map fun iv => (sum8 (fun u => tAt u (iv / 8) * at64 cq (8 * u + iv % 8)) + 64) / 128
  (List.range 64).map fun ij =>
    p.clip ((sum8 (fun v => tAt v (ij % 8) * at64 g (8 * (ij / 8) + v)) + 2048) / 4096 + p.mid)

/-- The levels of the device's forward transform and quantiser in scan order (R101; one rounding, log 14). -/
def forward (p : PicP) (qs : Nat) (pl : List Nat) : List Int :=
  let x := pl.map fun (v : Nat) => ((v : Int) - (p.mid : Int))
  let h := (List.range 64).map fun uj => sum8 fun i => tAt (uj / 8) i * at64 x (8 * i + uj % 8)
  let y := (List.range 64).map fun uv => (sum8 (fun j => tAt (uv % 8) j * at64 h (8 * (uv / 8) + j)) + 1024) / 2048
  toScan (y.map fun v =>
    if 0 ≤ v then (v + (qs / 3 : Nat)) / (qs : Int) else -((-v + (qs / 3 : Nat)) / (qs : Int)))

/-- NZ pairs of a plane (R98 step 3). -/
def pairsGet (lim : Nat) : Nat → Nat → Ent → List Int → List Bool → Option (Ent × List Int × List Bool)
  | 0, _, en, lev, l => some (en, lev, l)
  | k + 1, pos, en, lev, l =>
    (egGet en.kr l).bind fun run =>
    (egGet en.kl run.2).bind fun mag =>
    (getBits 1 mag.2).bind fun sign =>
      let pos' := pos + run.1 + 1
      if 63 < pos' ∨ lim < mag.1 + 1 then none
      else
        let v : Int := if sign.1 = 1 then -((mag.1 + 1 : Nat) : Int) else (mag.1 + 1 : Nat)
        pairsGet lim k pos' { en with kr := egUp en.kr run.1, kl := egUp en.kl mag.1 } (lev.set pos' v) sign.2

/-- One plane of an XFRM block: its levels in scan order (R98). -/
def planeGet (p : PicP) (pl : Nat) (en : Ent) (l : List Bool) : Option (Ent × List Int × List Bool) :=
  (egGet en.kd l).bind fun d =>
    let dc := en.dc.getD pl 0 + unmap d.1
    let en := { en with kd := egUp en.kd d.1, dc := en.dc.set pl dc }
    if (2 ^ (p.n + 3) : Nat) < dc.natAbs then none
    else (egGet en.kn d.2).bind fun nz =>
      let en := { en with kn := egUp en.kn nz.1 }
      if 63 < nz.1 then none
      else pairsGet (2 ^ (p.n + 3)) nz.1 0 en (dc :: List.replicate 63 0) nz.2

def planesGet (p : PicP) (qs : Nat) : List Nat → Ent → List (List Nat) → List Bool →
    Option (Ent × List (List Nat) × List Bool)
  | [], en, out, l => some (en, out, l)
  | pl :: t, en, out, l =>
    (planeGet p pl en l).bind fun g => planesGet p qs t g.1 (out ++ [inverse p qs (unscan g.2.1)]) g.2.2

/-- Run, magnitude and sign of the non-zero levels after scan position 0. -/
def pairsPut : List Int → Nat → Ent → List Bool → Ent × List Bool
  | [], _, en, out => (en, out)
  | v :: t, run, en, out =>
    if v = 0 then pairsPut t (run + 1) en out
    else
      let mag := v.natAbs - 1
      pairsPut t 0 { en with kr := egUp en.kr run, kl := egUp en.kl mag }
        (out ++ egPut en.kr run ++ egPut en.kl mag ++ [decide (v < 0)])

def planePut (pl : Nat) (lev : List Int) (en : Ent) : Ent × List Bool :=
  let dc := at64 lev 0
  let v := mapq (dc - en.dc.getD pl 0)
  let out := egPut en.kd v
  let en := { en with kd := egUp en.kd v, dc := en.dc.set pl dc }
  let nz := ((lev.drop 1).filter (· ≠ 0)).length
  pairsPut (lev.drop 1) 0 { en with kn := egUp en.kn nz } (out ++ egPut en.kn nz)

def planesPut (p : PicP) (qs : Nat) (blk : List (List Nat)) : List Nat → Ent → List (List Nat) → List Bool →
    Ent × List (List Nat) × List Bool
  | [], en, pls, out => (en, pls, out)
  | pl :: t, en, pls, out =>
    let lev := forward p qs (planeOfBlock p.mono blk pl)
    let g := planePut pl lev en
    planesPut p qs blk t g.1 (pls ++ [inverse p qs (unscan lev)]) (out ++ g.2)

/-! ### One block -/

/-- A block's rows behind what lies to their left. -/
def appendBlock (r : Rec) (blk : List (List Nat)) : Rec := { r with cur := (r.cur.zip blk).map fun x => x.1 ++ x.2 }

def flatBlock (mono : Bool) (v : List Nat) : List (List Nat) := blockOfPlanes mono (v.map fun x => List.replicate 64 x)

/-- Decodes one block (R86); the Bool is MISSING. -/
def blockGet (p : PicP) (qi : Nat) (r : Rec) (en : Ent) (l : List Bool) : Option (Rec × Ent × Bool × List Bool) :=
  let c := r.level p
  (getBits 2 l).bind fun bm =>
    if bm.1 = 0 then
      (predGet p (p.eb c qi) r ((List.range 16).zip r.cur) en [] bm.2).map fun g =>
        ({ r with cur := g.2.1 }, g.1, false, g.2.2)
    else if bm.1 = 1 then
      if p.mode ≠ 2 then none
      else (planesGet p (qStep (p.qb c qi)) [0, 1, 2, 3] en [] bm.2).map fun g =>
        (appendBlock r (blockOfPlanes p.mono g.2.1), g.1, false, g.2.2)
    else if bm.1 = 2 then
      (getBits 1 bm.2).bind fun miss =>
      (getBits p.n miss.2).bind fun v0 =>
      (getBits p.n v0.2).bind fun v1 =>
      (getBits p.n v1.2).bind fun v2 =>
      (getBits p.n v2.2).map fun v3 =>
        (appendBlock r (flatBlock p.mono [v0.1, v1.1, v2.1, v3.1]), en, miss.1 = 1, v3.2)
    else
      (verbGet p.n 16 bm.2).map fun g => (appendBlock r g.1, en, false, g.2)
where
  verbRow (n : Nat) : Nat → List Bool → Option (List Nat × List Bool)
    | 0, l => some ([], l)
    | k + 1, l => (getBits n l).bind fun v => (verbRow n k v.2).map fun g => (v.1 :: g.1, g.2)
  verbGet (n : Nat) : Nat → List Bool → Option (List (List Nat) × List Bool)
    | 0, l => some ([], l)
    | k + 1, l => (verbRow n 16 l).bind fun v => (verbGet n k v.2).map fun g => (v.1 :: g.1, g.2)

/-- How a block was coded. -/
inductive Coded | pred | xfrm | flat | verb
  deriving DecidableEq, Repr

def flatBits (p : PicP) (missing : Bool) (v : List Nat) : List Bool :=
  uBits 2 2 ++ missing :: v.flatMap (uBits p.n)

/-- The values of a missing block (R116): from the block above, from the block to the left, or mid-scale. -/
def missingValues (p : PicP) (r : Rec) (aboveBlk : Option (List (List Nat))) : List Nat :=
  let x0 := (r.cur.headD []).length
  (List.range 4).map fun pl =>
    match aboveBlk with
    | some b => (((planeOfBlock p.mono b pl).drop 56).foldl (· + ·) 0 + 4) / 8
    | none =>
      if x0 = 0 then p.mid
      else
        let left := r.cur.map fun row => row.drop (x0 - 16)
        let q := planeOfBlock p.mono left pl
        ((List.range 8).foldl (fun a i => a + nth q (8 * i + 7)) 0 + 4) / 8

/-- The value of a FLAT candidate and whether every sample is within eb of it (R114). -/
def flatTry (eb : Nat) (q : List Nat) : Nat × Bool :=
  let lo := q.foldl min (q.headD 0)
  let hi := q.foldl max 0
  let v := (lo + hi + 1) / 2
  (v, q.all fun x => max x v - min x v ≤ eb)

/-- A coded block: its bits, the reconstruction, the entropy state that the decoder reaches, and how it was coded. -/
structure BlockOut where
  bits : List Bool
  rec_ : Rec
  ent : Ent
  kind : Coded
  deriving DecidableEq, Repr

/-- The candidate codings of a block. -/
def codePred (p : PicP) (qi : Nat) (r : Rec) (en : Ent) (blk : List (List Nat)) : BlockOut :=
  let c := r.level p
  let g := predPut p (p.eb c qi) r ((List.range 16).zip (r.cur.zip blk)) en [] []
  ⟨uBits 2 0 ++ g.2.2, { r with cur := g.2.1 }, g.1, .pred⟩

def codeVerb (p : PicP) (r : Rec) (en : Ent) (blk : List (List Nat)) : BlockOut :=
  ⟨uBits 2 3 ++ blk.flatMap (fun row => row.flatMap (uBits p.n)), appendBlock r blk, en, .verb⟩

def codeFlat (p : PicP) (r : Rec) (en : Ent) (missing : Bool) (v : List Nat) : BlockOut :=
  ⟨flatBits p missing v, appendBlock r (flatBlock p.mono v), en, .flat⟩

def codeXfrm (p : PicP) (qi : Nat) (r : Rec) (en : Ent) (blk : List (List Nat)) : BlockOut :=
  let g := planesPut p (qStep (p.qb (r.level p) qi)) blk [0, 1, 2, 3] en [] []
  ⟨uBits 2 1 ++ g.2.2, appendBlock r (blockOfPlanes p.mono g.2.1), g.1, .xfrm⟩

/-- The cheaper of two codings, the first winning a tie; the second's cost is raised by a bias. -/
def cheaper (a b : BlockOut) (bias : Nat := 0) : BlockOut := if a.bits.length ≤ b.bits.length + bias then a else b

/-- The coding that the device chooses for a block that is not missing (R114, R115, R122). -/
def chooseBlock (p : PicP) (qi : Nat) (xfrm : Bool) (bias : Nat) (r : Rec) (en : Ent) (blk : List (List Nat)) : BlockOut :=
  let a := codePred p qi r en blk
  let v := codeVerb p r en blk
  if p.mode = 2 then
    if xfrm then
      let x := codeXfrm p qi r en blk
      if a.bits.length ≤ x.bits.length + bias then cheaper a v
      else if x.bits.length + bias ≤ v.bits.length then x else v
    else cheaper a v
  else
    let eb := p.eb (r.level p) qi
    let f := (List.range 4).map fun pl => flatTry eb (planeOfBlock p.mono blk pl)
    if f.all (·.2) then cheaper (cheaper a (codeFlat p r en false (f.map (·.1)))) v else cheaper a v

/-! ### One segment row -/

/-- Samples of block b of a segment row of 16 photosite rows. -/
def blockAt (rows : List (List Nat)) (b : Nat) : List (List Nat) := rows.map fun row => (row.drop (16 * b)).take 16

structure RowAcc where
  bits : List Bool
  rec_ : Rec
  ent : Ent
  verbs : Nat
  xfrms : Nat
  missing : Nat
  deriving DecidableEq, Repr

/-- Codes the blocks of a row from left to right. `aboveRows` are the 16 reconstructed rows of the row above, `miss` the
missing blocks of the row, and `flat` asks for the FLAT coding of R126 in every block. -/
def codeBlocks (p : PicP) (qi : Nat) (xfrm : Bool) (bias : Nat) (flat : Bool) (rows : List (List Nat))
    (aboveRows : Option (List (List Nat))) (miss : List Nat) : List Nat → RowAcc → RowAcc
  | [], a => a
  | b :: t, a =>
    let blk := blockAt rows b
    let o := if miss.contains b then
        codeFlat p a.rec_ a.ent true (missingValues p a.rec_ (aboveRows.map fun r => blockAt r b))
      else if flat then
        codeFlat p a.rec_ a.ent false
          ((List.range 4).map fun pl => ((planeOfBlock p.mono blk pl).foldl (· + ·) 0 + 32) / 64)
      else chooseBlock p qi xfrm bias a.rec_ a.ent blk
    codeBlocks p qi xfrm bias flat rows aboveRows miss t
      ⟨a.bits ++ o.bits, o.rec_, o.ent, a.verbs + b2n (o.kind = .verb), a.xfrms + b2n (o.kind = .xfrm),
        a.missing + b2n (miss.contains b)⟩

/-- The last two photosite rows of a reconstructed row. -/
def bottomTwo (rows : List (List Nat)) : List Nat × List Nat := (rows.getD 14 [], rows.getD 15 [])

/-- Codes one segment row at qi (R85). -/
def codeRow (p : PicP) (qi : Nat) (xfrm : Bool) (bias : Nat) (flat : Bool) (rows : List (List Nat))
    (aboveRows : Option (List (List Nat))) (miss : List Nat) (nb : Nat) : RowOut :=
  let a := codeBlocks p qi xfrm bias flat rows aboveRows miss (List.range nb)
    ⟨if p.mode = 2 then uBits 6 qi else [], Rec.start (aboveRows.map bottomTwo), Ent.reset p, 0, 0, 0⟩
  ⟨packBits a.bits, a.rec_.cur, a.verbs, a.xfrms, a.missing⟩

/-- Decodes the blocks of a row; the number of missing blocks is counted. -/
def blocksGet (p : PicP) (qi : Nat) : Nat → Rec → Ent → List Nat → Nat → List Bool →
    Option (Rec × List Nat × List Bool)
  | 0, r, _, ms, _, l => some (r, ms, l)
  | k + 1, r, en, ms, b, l =>
    (blockGet p qi r en l).bind fun g =>
      blocksGet p qi k g.1 g.2.1 (if g.2.2.1 then ms ++ [b] else ms) (b + 1) g.2.2.2

/-- Decodes one segment row, alignment included (R85, R103): its rows, its missing blocks and what follows. A segment is whole bytes,
so the bits left over from a multiple of 8 are the alignment. -/
def rowGet (p : PicP) (above : Option (List (List Nat))) (nb : Nat) (l : List Bool) :
    Option (List (List Nat) × List Nat × List Bool) :=
  (if p.mode = 2 then getBits 6 l else some (0, l)).bind fun qi =>
  (blocksGet p qi.1 nb (Rec.start (above.map bottomTwo)) (Ent.reset p) [] 0 qi.2).bind fun g =>
    let pad := g.2.2.length % 8
    if (g.2.2.take pad).any id then none else some (g.1.cur, g.2.1, g.2.2.drop pad)

/-- The rows of a segment decoded before a stream error, with their missing blocks, and whether it decoded whole (R103). -/
def segGet (p : PicP) (nb : Nat) : Nat → Option (List (List Nat)) → List Bool →
    List (List (List Nat) × List Nat) × Bool
  | 0, _, l => ([], l.isEmpty)
  | k + 1, above, l =>
    match rowGet p above nb l with
    | none => ([], false)
    | some (rows, ms, rest) =>
      if k = 0 ∧ !rest.isEmpty then ([], false)
      else
        let g := segGet p nb k (some rows) rest
        ((rows, ms) :: g.1, g.2)

end Sys2Proof.Machine
end

