-- ==== Sys2Proof/Machine/Irq.lean ====
section
/-! DEFINITION. The interrupt controller (R384 to R397): source levels, pending bits, the eight lines, claims and completes,
and the messages of the lines. -/

namespace Sys2Proof.Machine

def State.queue (s : State) (q : Nat) : Queue := tget Queue.fresh s.qf q

/-- The untaken notices of a queue (R229). -/
def Queue.untaken (q : Queue) : Nat := (q.pkts.filter fun p => p.issued && !p.taken).length

/-- Any event of an event register enabled. -/
def State.anyEvt (s : State) (e en : Nat) : Bool := s.z e &&& s.z en != 0

/-- Whether a source exists (R384, R5): reserved sources and those of absent units are never pending. -/
def State.hasSource (s : State) (n : Nat) : Bool :=
  (1 ≤ n && n ≤ 13) || (16 ≤ n && n ≤ 19) || (20 ≤ n && n < 20 + s.nLnd) || (24 ≤ n && n < 24 + s.nXcv) ||
  (28 ≤ n && n < 28 + s.nFct) || (33 ≤ n && n < 33 + s.nCod) || (36 ≤ n && n < 36 + s.nDmc) ||
  (48 ≤ n && n ≤ 55) || (64 ≤ n && n ≤ 95) || (240 ≤ n && n ≤ 255)

/-- The level of a source's hardware input (R384). -/
def State.level (s : State) (n : Nat) : Bool :=
  if !s.hasSource n then false
  else if n = 1 then s.anyEvt Adr.FLT_EVT Adr.FLT_EVT_EN
  else if n = 2 then s.anyEvt Adr.PWR_EVT Adr.PWR_EVT_EN || s.anyEvt Adr.THM_EVT Adr.THM_EVT_EN
  else if n = 3 then s.anyEvt Adr.GLB_EVT Adr.GLB_EVT_EN
  else if n = 4 then s.anyEvt Adr.SEQ_EVT Adr.SEQ_EVT_EN
  else if n = 5 then s.anyEvt Adr.QF_EVT Adr.QF_EVT_EN
  else if n = 6 then s.anyEvt Adr.BP_EVT Adr.BP_EVT_EN
  else if n = 7 then s.anyEvt Adr.SCH_EVT Adr.SCH_EVT_EN
  else if n = 8 then s.anyEvt Adr.DMA_EVT Adr.DMA_EVT_EN
  else if n = 9 then s.anyEvt Adr.FCT_P_EVT Adr.FCT_P_EVT_EN
  else if n = 10 then s.anyEvt Adr.COD_D_EVT Adr.COD_D_EVT_EN
  else if n = 11 then s.anyEvt Adr.PTP_EVT Adr.PTP_EVT_EN
  else if n = 12 then bit (s.z Adr.HST_ACC_ERR) 0
  else if n = 13 then 0 < (s.queue 4).untaken
  else if n < 20 then bit (s.z (Adr.HST_W_DONE (n - 16))) 0 && bit (s.z (Adr.HST_W_CTL (n - 16))) 0
  else if n < 24 then s.anyEvt (Adr.LND_EVT (n - 20)) (Adr.LND_EVT_EN (n - 20))
  else if n < 28 then s.anyEvt (Adr.XCV_EVT (n - 24)) (Adr.XCV_EVT_EN (n - 24))
  else if n < 33 then s.anyEvt (Adr.FCT_EVT (n - 28)) (Adr.FCT_EVT_EN (n - 28))
  else if n < 36 then s.anyEvt (Adr.COD_EVT (n - 33)) (Adr.COD_EVT_EN (n - 33))
  else if n < 48 then s.anyEvt (Adr.DMC_EVT (n - 36)) (Adr.DMC_EVT_EN (n - 36))
  else if n < 56 then 0 < (s.queue (n - 40)).untaken
  else if n < 96 then bit (s.z (Adr.IC_QW (n - 64))) 31 && 0 < (s.queue (bits (s.z (Adr.IC_QW (n - 64))) 0 12)).untaken
  else false

/-- The held software pending bit of a source (R390). -/
def State.soft (s : State) (n : Nat) : Bool := bit (s.z (Adr.IC_PEND_SET (n / 32))) (n % 32)

def State.isActive (s : State) (n : Nat) : Bool := s.ic.active.any (·.1 = n)

/-- The pending bit of a source (R386, R390, R399). -/
def State.isPending (s : State) (n : Nat) : Bool :=
  s.boot.done && s.hasSource n && !s.isActive n && (s.level n || s.soft n)

def State.srcPrio (s : State) (n : Nat) : Nat := bits (s.z (Adr.IC_SRC_CFG n)) 0 3

def State.srcFast (s : State) (n : Nat) : Bool := bit (s.z (Adr.IC_SRC_CFG n)) 3

/-- Whether a source qualifies for the claim register of a class of a target (R387). -/
def State.qualifies (s : State) (t : Nat) (fast : Bool) (n : Nat) : Bool :=
  bit (s.z (Adr.IC_EN t (n / 32))) (n % 32) && s.srcFast n == fast &&
  bits (s.z (Adr.IC_THR (b2n fast) t)) 0 3 < s.srcPrio n && s.isPending n

/-- The sources that a target's enable words name, rising. -/
def State.enabledOf (s : State) (t : Nat) : List Nat :=
  (List.range 8).flatMap fun i =>
    if s.z (Adr.IC_EN t i) = 0 then []
    else ((List.range 32).filter fun b => bit (s.z (Adr.IC_EN t i)) b).map fun b => 32 * i + b

/-- The source of the highest priority, the lower ID winning a tie. -/
def bestSource (prio : Nat → Nat) : List Nat → Option Nat
  | [] => none
  | n :: t => match bestSource prio t with
    | none => some n
    | some m => some (if prio m ≤ prio n then n else m)

/-- The candidate of a claim (R387). -/
def State.candidate (s : State) (t : Nat) (fast : Bool) : Option Nat :=
  bestSource s.srcPrio ((s.enabledOf t).filter (s.qualifies t fast))

/-- Line l = 2t + k of R389: asserted while any source qualifies. -/
def State.lineUp (s : State) (l : Nat) : Bool := (s.candidate (l / 2) (l % 2 = 1)).isSome

def State.emit (s : State) (m : Msg) : State := { s with sent := s.sent ++ [m] }

/-- The device may issue memory requests on PCIe (R373): the link is up, Bus Master Enable is set and domain HST is up. -/
def State.pcieUp (s : State) : Bool := bit (s.z Adr.HST_PCIE_STAT) 0 && bit (s.z Adr.HST_PCIE_STAT) 7 && s.domUp 21

/-- Whether an MSI-X message of a vector can be sent (R391): MSI-X enabled and not masked, Bus Master Enable set and the
link up, the vector not masked. -/
def State.msiOk (s : State) (v : Nat) : Bool :=
  s.pcieUp && bit (s.z Adr.HST_PCIE_STAT) 8 && !bit (s.z Adr.HST_PCIE_STAT) 9 && !s.flag (Adr.MSIX_CTL v) 0

/-- The message of a vector is sent, behind a FENCE_HOST (R37), or its PBA bit is set (R391). -/
def State.sendVector (s : State) (v : Nat) : State :=
  if s.msiOk v then s.readBack.emit (.msix (s.pair (Adr.MSIX_ADDR v) (Adr.MSIX_UADDR v)) (s.reg (Adr.MSIX_DATA v)))
  else s.setFld (Adr.MSIX_PBA (v / 32)) (v % 32) 1 1

/-- A line's message, where IC_ROUTE enables one (R391). -/
def State.lineMsg (s : State) (l : Nat) : State :=
  if s.flag (Adr.IC_ROUTE l) 10 then s.sendVector (s.fld (Adr.IC_ROUTE l) 4 6) else s

def linesNow (s : State) : BitVec 8 :=
  (List.range 8).foldl (fun v l => if s.lineUp l then v ||| BitVec.ofNat 8 (2 ^ l) else v) 0#8

/-- The lines routed to a vector with MSI_EN. -/
def State.linesOf (s : State) (v : Nat) : List Nat :=
  (List.range 8).filter fun l => s.flag (Adr.IC_ROUTE l) 10 && s.fld (Adr.IC_ROUTE l) 4 6 = v

/-- A vector's PBA bit clears when no line routed to it is asserted, and when its message is sent once delivery has become
possible (R391). -/
def State.dropPba (s : State) (v : Nat) : State :=
  if s.flag (Adr.MSIX_PBA (v / 32)) (v % 32) then
    (if !((s.linesOf v).any fun l => s.ic.lines.getLsbD l) then s.setFld (Adr.MSIX_PBA (v / 32)) (v % 32) 1 0
     else if s.msiOk v then (s.setFld (Adr.MSIX_PBA (v / 32)) (v % 32) 1 0).sendVector v
     else s)
  else s

/-- A line becomes asserted. -/
def lineRises (now old : BitVec 8) (l : Nat) : Bool := now.getLsbD l && !old.getLsbD l

/-- The lines follow their sources; a FENCE_HOST precedes every line that becomes asserted (R37, R392), and the line sends its
message. -/
def State.setLines (s : State) : State :=
  let now := linesNow s
  let old := s.ic.lines
  let s := { s with ic := { s.ic with lines := now } }
  iter (List.range 8) (fun l s => if lineRises now old l then s.lineMsg l else s)
    (if (List.range 8).any (lineRises now old) then s.readBack else s)

/-- After a command: the lines, and the PBA bits, which follow them (R391). -/
def settle (s : State) : State :=
  let s := s.setLines
  if s.z (Adr.MSIX_PBA 0) = 0 ∧ s.z (Adr.MSIX_PBA 1) = 0 then s else iter (List.range 64) (fun v s => s.dropPba v) s

/-- INT_N pin n is low while a line routed to it is asserted (R391). -/
def State.intLow (s : State) (n : Nat) : Bool :=
  (List.range 8).any fun l => s.fld (Adr.IC_ROUTE l) 0 3 = n && s.ic.lines.getLsbD l

/-- FAULT_N is low (R457). -/
def State.faultLow (s : State) : Bool := s.flt.pin || s.boot.stage = 11 || s.thm.shut

/-! ### Access errors (R376) -/

/-- The interface code of HST_ACC_ERR.IF; the sequencer never reaches it (R207). -/
def ifCode : Iface → Nat
  | .pcie => 0
  | .mspi => 2
  | .seq => 0

/-- Latches an access error, or counts a later one (R376); the sequencer changes nothing (R207). -/
def State.accErrAt (s : State) (ifc : Nat) (addr : Nat) (write : Bool) (code : Nat) : State :=
  if s.flag Adr.HST_ACC_ERR 0 then s.bumpFld Adr.HST_ACC_ERR 16 8 1
  else ((s.setRegN Adr.HST_ACC_ERR (1 + 2 * b2n write + 4 * ifc + 256 * code)).setRegN
    Adr.HST_ACC_ERR_ADDR_LO addr).setRegN Adr.HST_ACC_ERR_ADDR_HI (addr / 2 ^ 32)

def State.accErr (s : State) (f : Iface) (addr : Nat) (write : Bool) (code : Nat) : State :=
  if f = .seq then s else s.accErrAt (ifCode f) addr write code

/-- What a read over an interface returned. -/
def ifIdx : Iface → Nat
  | .pcie => 0
  | .mspi => 1
  | .seq => 2

def State.answer (s : State) (f : Iface) (l : List Word) : State := { s with rd := tput s.rd (ifIdx f) l }

/-! ### Claim and complete (R387, R388) -/

/-- The value a claim read returns and the state after it (R387, R390). -/
def State.claim (s : State) (t : Nat) (fast : Bool) : Word × State :=
  match s.candidate t fast with
  | none => (0, s.bump Adr.IC_CNT_SPUR)
  | some n =>
    (BitVec.ofNat 32 n,
      { s.setFld (Adr.IC_PEND_SET (n / 32)) (n % 32) 1 0 with
        ic := { s.ic with active := s.ic.active ++ [(n, t, fast)] } })

/-- Completing source n from a target's register of a class (R388); a line left asserted sends another message (R391). -/
def State.complete (s : State) (t : Nat) (fast : Bool) (n : Nat) : State :=
  if s.ic.active.any (fun x => x.1 = n && x.2.1 = t && x.2.2 == fast) then
    let s := { s with ic := { s.ic with active := s.ic.active.filter (fun x => x.1 ≠ n) } }
    if s.lineUp (2 * t + b2n fast) && s.ic.lines.getLsbD (2 * t + b2n fast) then s.lineMsg (2 * t + b2n fast) else s
  else s.setRegN Adr.IC_ERR (n % 256 + 256 * (t % 4) + 1024 * b2n fast + 2048)

/-- Setting software pending bits (R390): those of sources that exist. -/
def State.pendSet (s : State) (i : Nat) (v : Word) : State :=
  let ok := (List.range 32).foldl
    (fun (m : Word) b => if bit v b && s.hasSource (32 * i + b) then m ||| BitVec.ofNat 32 (2 ^ b) else m) 0
  s.setReg (Adr.IC_PEND_SET i) (s.reg (Adr.IC_PEND_SET i) ||| ok)

end Sys2Proof.Machine
end

