-- ==== Sys2Proof/Machine/Fault.lean ====
section
/-! DEFINITION. Raising: event bits, sequencer event lines (R208) and reports to the fault collector (R446 to R449). -/

namespace Sys2Proof.Machine

/-- Whether the unit of an event line is present (R208). -/
def State.hasEvent (s : State) (e : Nat) : Bool :=
  (0x01 ≤ e && e ≤ 0x0C && (e - 1) % 3 < s.nLnd) || (0x10 ≤ e && e < 0x10 + s.nFct) ||
  (0x18 ≤ e && e < 0x18 + s.nFct) || (0x20 ≤ e && e < 0x20 + s.nCtx) || (0x60 ≤ e && e < 0x60 + s.nCtx) ||
  (0xA0 ≤ e && e ≤ 0xA7) || (0xB0 ≤ e && e < 0xB0 + s.nDma) || (0xD0 ≤ e && e < 0xD0 + s.nXcv) ||
  (0xE0 ≤ e && e ≤ 0xE3) || (0xF0 ≤ e && e ≤ 0xFF)

/-- Event lines that R208 reserves. -/
def reservedEvent (e : Nat) : Bool :=
  !((0x01 ≤ e && e ≤ 0x0C) || (0x10 ≤ e && e ≤ 0x14) || (0x18 ≤ e && e ≤ 0x1C) || (0x20 ≤ e && e ≤ 0xA7) ||
    (0xB0 ≤ e && e ≤ 0xCF) || (0xD0 ≤ e && e ≤ 0xD3) || (0xE0 ≤ e && e ≤ 0xE3) || (0xF0 ≤ e && e ≤ 0xFF))

/-- One occurrence on an event line; a count that saturates raises EVT_SAT (R208). -/
def State.occur (s : State) (e : Nat) : State :=
  if !s.hasEvent e then s
  else
    let n := tget 0 s.evts e
    let s := { s with evts := tset 0 s.evts e (sat 65535 (n + 1)) }
    if 65535 ≤ n + 1 then s.raise Adr.SEQ_EVT 6 else s

/-- Fabric cycles of 1 ns since the last tick, saturating (R447). -/
def State.cycle (s : State) : Nat := sat 0xFFFFFF (s.clk.now - s.clk.lastTick.getD 0)

/-- A block's report enters its buffer, or is lost and counted where the buffer holds 4 (R449). -/
def State.report (s : State) (r : Report) (inj : Bool := false) (action : Nat := 0) (force : Bool := false) : State :=
  let l := tget [] s.flt.bufs r.block
  if l.length < 4 then
    let rec_ : FRec := ⟨s.clk.count, s.cycle, r.block, r.code, r.kind, inj, .none, r.unit, r.arg, r.arg2, 0, r.result, action,
      force, false⟩
    { s with flt := { s.flt with bufs := tset [] s.flt.bufs r.block (l ++ [rec_]) } }
  else (s.bump Adr.FLT_CNT_LOST).raise Adr.FLT_EVT 5

/-- TARGET of a request or record: kind and index (R377, R380). -/
def target (kind index : Nat) : Nat := 4096 * kind + index

def State.reportHw (s : State) (block code unit : Nat) (arg : Nat := 0) (arg2 : Nat := 0) (action : Nat := 0) : State :=
  s.report ⟨block, code, 0, unit, arg, arg2, 0⟩ false action

def State.reportSw (s : State) (block code : Nat) (result : Nat := 0) (arg : Nat := 0) (arg2 : Nat := 0) : State :=
  s.report ⟨block, code, 1, 0, arg, arg2, result⟩

def State.reportStream (s : State) (block code unit : Nat) (arg : Nat := 0) : State :=
  s.report ⟨block, code, 2, unit, arg, 0, 0⟩

/-- Local time never goes back. -/
def State.at_ (s : State) (t : Nat) : State := { s with clk := { s.clk with now := max s.clk.now t } }

end Sys2Proof.Machine
end

