-- ==== Sys2Proof/Machine/Regions.lean ====
section
/-! DEFINITION. The DRAM address, the regions and the check that every access of a port passes (R265 to R270), and the writes that
units of the device make. Readings are log 22. -/

namespace Sys2Proof.Machine

def popcount (n : Nat) : Nat := (List.range 8).foldl (fun c k => c + n / 2 ^ k % 2) 0

def hasLane (m k : Nat) : Bool := m / 2 ^ k % 2 = 1

/-! ### The DRAM address (R265 to R267) -/

def State.pkgMask (s : State) : Nat := s.fld Adr.DMC_G_CFG 0 4

/-- Channels fitted. -/
def State.nCh (s : State) : Nat := 4 * popcount s.pkgMask

/-- Bytes of one channel, of one rank. -/
def State.rankBytes (s : State) : Nat := 2 ^ s.fld Adr.DMC_G_CFG 6 2 * 2 ^ 30
def State.chBytes (s : State) : Nat := (s.fld Adr.DMC_G_CFG 8 1 + 1) * s.rankBytes

def mib : Nat := 2 ^ 20

def State.reloc (s : State) : Nat := s.fld Adr.DMC_G_RELOC 0 16 * mib
def State.rtop (s : State) : Nat := s.fld Adr.DMC_G_RTOP 0 16 * mib

/-- The usable capacity in bytes. -/
def State.dramCap (s : State) : Nat := s.nCh * (s.chBytes - s.reloc)

def State.dc (s : State) (ch : Nat) : DChan := tget DChan.fresh s.dch ch

def State.setDc (s : State) (ch : Nat) (x : DChan) : State := { s with dch := tset DChan.fresh s.dch ch x }

def State.modDc (s : State) (ch : Nat) (f : DChan → DChan) : State := s.setDc ch (f (s.dc ch))

def State.dk (s : State) (d : Nat) : DCtl := tget DCtl.fresh s.dctl d

def State.setDk (s : State) (d : Nat) (x : DCtl) : State := { s with dctl := tset DCtl.fresh s.dctl d x }

/-- A channel of some package is retired (R292). -/
def State.anyRetired (s : State) : Bool := s.dch.any fun c => c.2.out

/-- First address that is reserved DRAM: the capacity, or C × RTOP while a channel is retired. -/
def State.dramTop (s : State) : Nat := if s.anyRetired then min s.dramCap (s.nCh * s.rtop) else s.dramCap

/-- The channel of an address. -/
def State.chanAt (s : State) (a : Nat) : Nat :=
  let c := max 1 s.nCh
  (a / 256 % c) ^^^ (a / 65536 % c) ^^^ (a / 2 ^ 24 % c)

/-- The channel-local address. -/
def State.localAt (s : State) (a : Nat) : Nat := a / (256 * max 1 s.nCh) * 256 + a % 256

/-- Row, bank group, bank and rank of a local address, in the layout of DMC_CH_LAST_ERR. -/
def State.rowKey (s : State) (l : Nat) : Nat :=
  let row := l % max 1 s.rankBytes / 2 ^ 15
  let bg := (l / 2 ^ 11 % 4) ^^^ (row % 4)
  let bank := (l / 2 ^ 13 % 4) ^^^ (row / 4 % 4)
  row % 2 ^ 17 + 2 ^ 17 * bg + 2 ^ 19 * bank + 2 ^ 21 * (l / max 1 s.rankBytes % 2)

/-! ### Regions (R268 to R270) -/

/-- Base, size and attributes of region r. -/
def State.rgn (s : State) (r : Nat) : Nat × Nat × Word :=
  (65536 * s.fld (Adr.DMC_G_RGN_BASE r) 0 21, 65536 * s.fld (Adr.DMC_G_RGN_SIZE r) 0 21, s.reg (Adr.DMC_G_RGN_ATTR r))

def State.rgnOf (s : State) (a : Nat) : Option (Nat × Nat × Word) :=
  ((List.range 16).map s.rgn).find? fun r => bit r.2.2 0 && r.1 ≤ a && a < r.1 + r.2.1

/-- Whether the address lies in a protected region. -/
def State.eccAt (s : State) (a : Nat) : Bool := (s.rgnOf a).any fun r => bit r.2.2 1

/-- Reserved DRAM (R265, R270, R292). -/
def State.dramReserved (s : State) (a : Nat) : Bool :=
  s.dramTop ≤ a || (s.rgnOf a).any fun r => bit r.2.2 1 && r.1 + r.2.1 / 8 * 7 ≤ a

/-- A port may write the address (R269): before boot completes, every port may. -/
def State.dramMayWrite (s : State) (port a : Nat) : Bool :=
  !s.boot.done || (s.rgnOf a).all fun r => bit r.2.2 (16 + port)

/-- Every DMC domain of a fitted package is ON and not draining (R287). -/
def State.dramOn (s : State) : Bool := (List.range 4).all fun p => !hasLane s.pkgMask p || s.domRuns (10 + p)

def State.dmcEvt (s : State) (d n : Nat) : State := s.raise (Adr.DMC_EVT d) n

/-- The code that an access of n bytes earns. -/
def State.dramCode (s : State) (port a n : Nat) (write : Bool) : Nat :=
  let bytes := List.range' a n
  if !s.dramOn then Code.domainOff
  else if bytes.any s.dramReserved then Code.badTarget
  else if write && bytes.any (fun b => !s.dramMayWrite port b) then Code.locked
  else Code.done

/-- What a refused access raises and reports, apart from the host window's own error latch. -/
def State.dramRefuse (s : State) (port a code : Nat) : State :=
  if code = Code.badTarget ∧ port ≠ 12 then s.reportSw 36 0x0108 code port (a / 256 % 2 ^ 32)
  else if code = Code.locked then
    let d := s.chanAt a / 4
    (s.dmcEvt d 10).reportSw (36 + d) 10 code port (a / 256 % 2 ^ 32)
  else s

/-- A write of a unit's own, on its port: it passes the checks of every access, and one that they refuse changes nothing (R269). -/
def State.dramPut (s : State) (port a : Nat) (l : List Byte) : State :=
  let code := s.dramCode port a l.length true
  if code = Code.done then { s with dram := memWrite 0 s.dram a l } else s.dramRefuse port a code

end Sys2Proof.Machine
end

