-- ==== Sys2Proof/Machine/Pools.lean ====
section
/-! DEFINITION. The buffer pools (R248 to R262): handles, the free store, arbitration, quotas, owners and frees. -/

namespace Sys2Proof.Machine

/-- Units of 256 bytes in a buffer of pool k (R248). -/
def poolUnits (k : Nat) : Nat := 4 ^ k

def handlePool (h : Word) : Nat := bits h 0 3
def handleIdx (h : Word) : Nat := bits h 8 24
def mkHandle (k i : Nat) : Word := BitVec.ofNat 32 (k + 256 * i)

def State.pool (s : State) (k : Nat) : Pool := tget Pool.fresh s.pools k

def State.setPool (s : State) (k : Nat) (p : Pool) : State := { s with pools := tset Pool.fresh s.pools k p }

def State.poolCount (s : State) (k : Nat) : Nat := s.fld (Adr.BP_P_COUNT k) 0 25

/-- BP_P_FREE: free buffers of a pool (R251). -/
def State.poolFree (s : State) (k : Nat) : Nat :=
  (s.poolCount k - (s.pool k).next) + (s.pool k).cache.length + (s.pool k).ringCount

/-- Device address of a buffer (R248). -/
def State.bufAddr (s : State) (h : Word) : Nat :=
  s.pair (Adr.BP_P_BASE_LO (handlePool h)) (Adr.BP_P_BASE_HI (handlePool h)) + handleIdx h * 256 * poolUnits (handlePool h)

/-- A handle that every operation refuses with OUT_OF_RANGE (R249). -/
def State.badHandle (s : State) (h : Word) : Bool :=
  6 ≤ handlePool h || bits h 3 5 != 0 || s.poolCount (handlePool h) ≤ handleIdx h

def State.ownAddr (s : State) (h : Word) : Nat :=
  s.pair (Adr.BP_P_OWN_LO (handlePool h)) (Adr.BP_P_OWN_HI (handlePool h)) + 2 * handleIdx h

/-- The owner entry of a buffer (R259); an index the counter has not handed out is free (R251). -/
def State.owner (s : State) (h : Word) : Nat :=
  if (s.pool (handlePool h)).next ≤ handleIdx h then 0xFFFF else leNat (memRead 0 s.dram (s.ownAddr h) 2)

/-- Owner tables are written on the queue spill port (R250). -/
def State.setOwner (s : State) (h : Word) (v : Nat) : State := s.dramPut 10 (s.ownAddr h) (leBytes 2 v)

/-- Owner entries that R259 reserves. -/
def ownReserved (v : Nat) : Bool := !(v < 0x40 || (0x8000 ≤ v && v < 0x9000) || v = 0xFFFF)

def State.held (s : State) (r : Nat) : Nat := s.fld (Adr.BP_R_HELD r) 0 24

def State.charge (s : State) (r k : Nat) : State := s.setFld (Adr.BP_R_HELD r) 0 24 (s.held r + poolUnits k)

def State.uncharge (s : State) (r k : Nat) : State := s.setFld (Adr.BP_R_HELD r) 0 24 (s.held r - poolUnits k)

/-- The quota in force of a requester; 48 to 63 have none (R253, R254). -/
def State.quota (s : State) (r : Nat) : Nat := if 48 ≤ r then 0 else bits (s.inForce (Adr.BP_R_QUOTA r)) 0 24

/-- The lowest free count seen since the last read of BP_P_MINFREE. -/
def State.noteMinFree (s : State) (k : Nat) : State :=
  if s.poolFree k < s.fld (Adr.BP_P_MINFREE k) 0 25 then s.setFld (Adr.BP_P_MINFREE k) 0 25 (s.poolFree k) else s

/-- The next handle of a pool with a free buffer: the cache's top, then the counter (R251). -/
def Pool.take (p : Pool) (k count : Nat) : Option (Word × Pool) :=
  match p.cache with
  | h :: t => some (h, { p with cache := t })
  | [] => if p.next < count then some (mkHandle k p.next, { p with next := p.next + 1 }) else none

/-- The smallest pool for a size (R255). -/
def poolFor (size : Nat) : Nat :=
  if size ≤ 256 then 0 else if size ≤ 1024 then 1 else if size ≤ 4096 then 2 else if size ≤ 16384 then 3
  else if size ≤ 65536 then 4 else 5

/-- The pool an ask selects, or the code that refuses it at once (R255; a pool number that no pool has is OUT_OF_RANGE as
for handles, R249). -/
def askPool (a : AllocAsk) : Except Nat Nat :=
  if a.bySize then (if a.arg = 0 ∨ 262144 < a.arg then .error Code.tooLong else .ok (poolFor a.arg))
  else if a.arg < 6 then .ok a.arg else .error Code.outOfRange

/-- The answer to a requester; the host's stands in its registers (R262). -/
def State.answerAlloc (s : State) (r code : Nat) (h : Word) : State :=
  let s := { s with answers := tput s.answers r (code, h) }
  if r = 13 then (s.setRegN Adr.BP_H_RES code).setReg Adr.BP_H_HANDLE h else s

/-- The last answer of an allocation: QUOTA_EXCEEDED, or POOL_EMPTY from the last pool tried (R254, R256). -/
def State.refuseAlloc (s : State) (r code : Nat) : State := (s.bump (Adr.BP_R_CNT_REFUSED r)).answerAlloc r code 0

/-- Pool k answers POOL_EMPTY, which the pool counts; whether the requester then tries the next larger pool (R256). -/
def State.emptyAt (s : State) (k : Nat) (a : PoolAsk) : Bool × State :=
  let s := (s.bump (Adr.BP_P_CNT_EMPTY k)).raise Adr.BP_EVT 0
  if a.r ≠ 0 ∧ s.flag (Adr.BP_R_CTL a.r) 0 ∧ k < min 5 (s.fld (Adr.BP_R_CTL a.r) 1 3) then (true, s)
  else (false, s.refuseAlloc a.r Code.poolEmpty)

/-- A buffer of pool k goes to a requester: its owner, its charge and the pool's counts (R254, R256, R259). -/
def State.grantBuf (s : State) (k : Nat) (a : PoolAsk) (h : Word) (p : Pool) : State :=
  let s := (((s.setPool k p).setOwner h a.r).charge a.r k).bump (Adr.BP_P_CNT_ALLOC k)
  ((if a.spilled then s.bump (Adr.BP_P_CNT_SPILLIN k) else s).noteMinFree k).answerAlloc a.r Code.done h

/-- Serves the winner of pool k's arbitration: whether it spills up. The quota is checked first (R254, R255); an allocation that
must wait for a refill keeps waiting (R252). -/
def State.serveAlloc (s : State) (k : Nat) (a : PoolAsk) : Bool × State :=
  if s.quota a.r < s.held a.r + poolUnits k then (false, (s.raise Adr.BP_EVT 2).refuseAlloc a.r Code.quotaExceeded)
  else if s.flag (Adr.BP_P_CTL k) 0 && 0 < s.poolFree k then
    match (s.pool k).take k (s.poolCount k) with
    | none => (false, s.setPool k { s.pool k with waiting := a :: (s.pool k).waiting })
    | some (h, p) => (false, s.grantBuf k a h p)
  else s.emptyAt k a

/-- The requester with the lowest index. -/
def lowestAsk (l : List PoolAsk) : Option PoolAsk := (least? (l.map (·.r))).bind fun m => l.find? (·.r = m)

/-- The waiting requester that is first in round-robin order from a pointer (R257). -/
def rrFirst (ptr : Nat) (l : List PoolAsk) : Option PoolAsk :=
  match lowestAsk (l.filter fun a => ptr ≤ a.r) with
  | some a => some a
  | none => lowestAsk l

/-- Answers the asks that a size or a pool number refuses at once, and keeps those of pool k. -/
def State.sortAsks (s : State) (k : Nat) : List AllocAsk → List PoolAsk × State
  | [] => ([], s)
  | a :: t =>
    match askPool a with
    | .error c => (s.answerAlloc a.r c 0).sortAsks k t
    | .ok j =>
      let r := s.sortAsks k t
      (if j = k then ⟨a.r, false⟩ :: r.1 else r.1, r.2)

/-- Every loser of a cycle whose winner took the last buffer is answered POOL_EMPTY (R257): those that spill up, in order. -/
def State.emptyAll (s : State) (k : Nat) : List PoolAsk → List PoolAsk × State
  | [] => ([], s)
  | a :: t =>
    let x := s.emptyAt k a
    let y := x.2.emptyAll k t
    (if x.1 then ⟨a.r, true⟩ :: y.1 else y.1, y.2)

/-- The winner of pool k's arbitration is served. The losers of a cycle whose winner took the last buffer are answered POOL_EMPTY;
otherwise they go on waiting. Those that spill up come out (R256, R257). -/
def State.serveRound (s : State) (k : Nat) (a : PoolAsk) (lose join : List PoolAsk) : List PoolAsk × State :=
  let x := (s.setPool k { s.pool k with waiting := lose ++ join, ptr := (a.r + 1) % 64 }).serveAlloc k a
  let y := if s.poolFree k = 1 ∧ x.2.poolFree k = 0 then (x.2.setPool k { x.2.pool k with waiting := join }).emptyAll k lose
    else ([], x.2)
  ((if x.1 then [⟨a.r, true⟩] else []) ++ y.1, y.2)

/-- One arbitration of pool k with the requesters that ask it in this cycle, and, of those that spill up, of the next larger pool
(R256, R257). The losers of a cycle are those that it considered; a requester that joins those that wait is not one of them
(log 1201). `fuel` bounds the pools. -/
def State.arbitrate (s : State) : (fuel k : Nat) → List PoolAsk → State
  | 0, _, _ => s
  | n + 1, k, asks =>
    let p := s.pool k
    let old := p.waiting
    match if old = [] then lowestAsk asks else rrFirst p.ptr old with
    | none => s
    | some a =>
      let y := s.serveRound k a (if old = [] then asks.erase a else old.erase a) (if old = [] then [] else asks)
      if y.1 = [] then y.2 else y.2.arbitrate n (k + 1) y.1

/-- The allocations that ask pool k in one cycle, which name it or whose size selects it (R255, R257). -/
def State.allocate (s : State) (k : Nat) (asks : List AllocAsk) : State :=
  let r := s.sortAsks k asks
  r.2.arbitrate 6 k r.1

/-! ### The free ring (R250) -/

/-- Address of the ring's place i, counted from its oldest handle. -/
def State.ringAddr (s : State) (k i : Nat) : Nat :=
  s.pair (Adr.BP_P_RING_LO k) (Adr.BP_P_RING_HI k) + 4 * (((s.pool k).ringHead + i) % max 1 (s.poolCount k))

/-- The first n handles of the ring, read from DRAM. -/
def State.ringRead (s : State) (k n : Nat) : List Word :=
  (List.range n).map fun i => BitVec.ofNat 32 (leNat (memRead 0 s.dram (s.ringAddr k i) 4))

/-- Puts handles in DRAM at the end of the ring, on the queue spill port. -/
def State.ringWrite (s : State) (k : Nat) (l : List Word) : State :=
  let s := iter l.zipIdx (fun x s => s.dramPut 10 (s.ringAddr k ((s.pool k).ringCount + x.2)) (leBytes 4 x.1.toNat)) s
  s.setPool k { s.pool k with ringCount := (s.pool k).ringCount + l.length }

/-- A cache of more than 48 handles moves 16 to the ring (R250): those that have lain in it longest, the longest first (log 12). -/
def State.balance (s : State) (k : Nat) : State :=
  let p := s.pool k
  if 48 < p.cache.length then
    (s.setPool k { p with cache := p.cache.take (p.cache.length - 16) }).ringWrite k (p.cache.drop (p.cache.length - 16)).reverse
  else s

/-- Whether the cache is to be refilled: fewer than 16 handles, the ring holds some, and the counter is spent (R250). -/
def State.refillDue (s : State) (k : Nat) : Bool :=
  (s.pool k).cache.length < 16 && 0 < (s.pool k).ringCount && s.poolCount k ≤ (s.pool k).next

/-- A refill of 16 handles (R250), which go beneath the cached ones in the ring's order (log 12). A waiting allocation then goes on
(R252). -/
def State.refillCache (s : State) (k : Nat) : State :=
  if s.refillDue k then
    let p := s.pool k
    let n := min 16 p.ringCount
    (s.setPool k { p with
      cache := p.cache ++ (s.ringRead k n).reverse, ringHead := (p.ringHead + n) % max 1 (s.poolCount k),
      ringCount := p.ringCount - n }).arbitrate 6 k []
  else s

/-- A buffer returns to its pool's cache. -/
def State.putBack (s : State) (h : Word) : State :=
  let k := handlePool h
  ((s.setOwner h 0xFFFF).setPool k { s.pool k with cache := h :: (s.pool k).cache }).balance k

/-- A refused free (R260). -/
def State.badFree (s : State) (r : Nat) (h : Word) (code : Nat) (own : Bool) : State :=
  let s := (((s.bump Adr.BP_CNT_BADFREE).setRegN Adr.BP_LAST_BAD (r % 64 + 256 * code)).setReg Adr.BP_LAST_BAD_H h)
  if own then (s.raise Adr.BP_EVT 3).reportHw 6 3 (target 9 2) h.toNat
  else (s.raise Adr.BP_EVT 1).reportSw 6 1 code h.toNat

/-- A free by requester r; `ecc` says that the owner entry's DRAM read is uncorrectable (R260). -/
def State.freeBuf (s : State) (r : Nat) (h : Word) (ecc : Bool := false) : Nat × State :=
  if s.badHandle h then (Code.outOfRange, s.badFree r h Code.outOfRange false)
  else if ecc || ownReserved (s.owner h) then (Code.notOwner, s.badFree r h Code.notOwner true)
  else if s.owner h = 0xFFFF then (Code.doubleFree, s.badFree r h Code.doubleFree false)
  else if s.owner h ≠ r then (Code.notOwner, s.badFree r h Code.notOwner false)
  else (Code.done, (s.uncharge r (handlePool h)).putBack h)

/-- The requester of a queue's consumer (R261). -/
def consumerReq (cons idx : Nat) : Nat :=
  if cons = 0 then 13
  else if cons = 1 then 1 + idx / 2
  else if cons = 2 then 5 + idx
  else 16 + idx

/-- A free and its answer; the host's stands in BP_H_FREE_RES (R262). -/
def State.answerFree (s : State) (a : FreeAsk) : State :=
  let x := s.freeBuf a.r a.handle a.ecc
  let s := { x.2 with answers := tput x.2.answers a.r (x.1, 0) }
  if a.r = 13 then s.setRegN Adr.BP_H_FREE_RES x.1 else s

/-- The frees of one cycle, in rising requester index (R260). -/
def State.freeAll (s : State) (asks : List FreeAsk) : State :=
  iter ((List.range 64).flatMap fun r => asks.filter (·.r = r)) (fun a s => s.answerFree a) s

/-- A write of BP_H_ALLOC (R262): the ask joins its pool's arbitration as requester 13. -/
def State.hostAlloc (s : State) (v : Word) : Nat × State :=
  if s.flag Adr.BP_H_RES 8 then (Code.notNow, s)
  else
    match askPool ⟨13, bit v 3, if bit v 3 then bits v 8 19 else bits v 0 3⟩ with
    | .error c => (Code.done, s.answerAlloc 13 c 0)
    | .ok k => (Code.done, (s.setRegN Adr.BP_H_RES 256).setPool k { s.pool k with waiting := (s.pool k).waiting ++ [⟨13, false⟩] })

/-- A write of BP_H_FREE (R262). Its free is answered within the write, so BUSY reads 0 between commands (log 12). -/
def State.hostFree (s : State) (v : Word) (ecc : Bool) : Nat × State :=
  if s.flag Adr.BP_H_FREE_RES 8 then (Code.notNow, s) else (Code.done, s.answerFree ⟨13, v, ecc⟩)

end Sys2Proof.Machine
end

