-- ==== Sys2Proof/Machine/Queues.lean ====
section
/-! DEFINITION. The queue fabric (R225 to R247, R503): words, packets and notices, the stores and the DRAM chain, mark,
rewind and release, resets and snapshots. -/

namespace Sys2Proof.Machine

def State.setQueue (s : State) (q : Nat) (x : Queue) : State := { s with qf := tset Queue.fresh s.qf q x }

def State.modQueue (s : State) (q : Nat) (f : Queue → Queue) : State := s.setQueue q (f (s.queue q))

/-! ### Words -/

/-- Parity bit k: the XOR of the bits of an 8-byte group (R225). -/
def parityOf (l : List Byte) : BitVec 4 :=
  let par (g : List Byte) : Bool := g.foldl (fun p b => (List.range 8).foldl (fun p i => p != b.getLsbD i) p) false
  (List.range 4).foldl
    (fun v k => if par ((l.drop (8 * k)).take 8) then v ||| BitVec.ofNat 4 (2 ^ k) else v) 0#4

/-- A word of at most 32 bytes, filled with zeros (R229). -/
def mkWord (l : List Byte) (poison : Bool) : QWord :=
  let d := l ++ List.replicate (32 - l.length) 0
  ⟨d, parityOf d, poison⟩

/-- Index of the word that holds REL, counted from the queue's reset. -/
def Queue.base (q : Queue) : Nat := q.rel / 32

/-- Words from REL's word to TAIL. -/
def Queue.total (q : Queue) : Nat := q.base + q.words.length

def Queue.word (q : Queue) (i : Nat) : QWord := (q.words[i - q.base]?).getD (mkWord [] false)

def Queue.setWord (q : Queue) (i : Nat) (w : QWord) : Queue := { q with words := q.words.set (i - q.base) w }

/-- The depth of R228 (log 13). -/
def Queue.depth (q : Queue) : Nat := q.tail / 32 - q.base

def Queue.headWords (q : Queue) : Nat := q.headEnd - q.read / 32
def Queue.midWords (q : Queue) : Nat := q.midEnd - q.headEnd
def Queue.tailWords (q : Queue) : Nat := q.total - q.midEnd

def State.qEnabled (s : State) (q : Nat) : Bool := s.flag (Adr.QF_Q_CFG q) 0
def State.qNoSpill (s : State) (q : Nat) : Bool := s.flag (Adr.QF_Q_CFG q) 1
def State.qAutoRel (s : State) (q : Nat) : Bool := s.flag (Adr.QF_Q_CFG q) 2
def State.qClass (s : State) (q : Nat) : Nat := s.fld (Adr.QF_Q_CFG q) 3 2
def State.qCons (s : State) (q : Nat) : Nat := s.fld (Adr.QF_Q_CFG q) 5 2
def State.qConsIdx (s : State) (q : Nat) : Nat := s.fld (Adr.QF_Q_CFG q) 8 8
def State.qHead (s : State) (q : Nat) : Nat := 8 * s.fld (Adr.QF_Q_STORE q) 0 8
def State.qTailW (s : State) (q : Nat) : Nat := 8 * s.fld (Adr.QF_Q_STORE q) 8 8
def State.qSpillTh (s : State) (q : Nat) : Nat := 8 * s.fld (Adr.QF_Q_STORE q) 16 8

/-- SPILL_NOW (R238). -/
def State.qSpillNow (s : State) (q : Nat) : Nat := (s.queue q).spillNow.getD (s.qSpillTh q)

/-- The depth limit in force, 0 for none (R239). -/
def State.qLimit (s : State) (q : Nat) : Nat := bits (s.inForce (Adr.QF_Q_LIMIT q)) 0 26

/-- A fabric event of a queue (R247). -/
def State.qEvent (s : State) (q n : Nat) : State := (s.raise Adr.QF_EVT n).setRegN Adr.QF_EVT_Q (q % 4096)

/-- POISON is set in a word, which keeps its data bytes, and the queue counts it (R226). Its parity is written anew, so that
one error is counted once (log 1305). -/
def State.poisonMark (s : State) (q i : Nat) : State :=
  let x := s.queue q
  let w := x.word i
  (s.setQueue q { x.setWord i { w with parity := parityOf w.data, poison := true } with poisonSeen := true }).bump
    (Adr.QF_Q_CNT_POISON q)

/-- POISON and its report (R226, R247). -/
def State.poisonRaise (s : State) (q i : Nat) : State := (s.qEvent q 0).reportHw 5 0 (target 9 2) q (i % 2 ^ 32)

/-- A word found wrong is poisoned, counted and reported (R226). -/
def State.poisonWord (s : State) (q i : Nat) : State := ((s.poisonMark q i).bump Adr.QF_CNT_PARERR).poisonRaise q i

/-- The parity check at a read from the store, before a word is written to DRAM, and after it is read back (R226). -/
def State.checkWord (s : State) (q i : Nat) : State :=
  let w := (s.queue q).word i
  if parityOf w.data = w.parity then s else s.poisonWord q i

/-! ### The DRAM chain (R237) -/

/-- The chain buffer that holds word i, and the word's address in it: 32 bytes of link word, then 127 data words. -/
def chainAddr (s : State) (q i : Nat) : Option Nat :=
  ((s.queue q).chain.find? fun c => c.first ≤ i && i < c.first + c.n).map
    fun c => s.bufAddr c.handle + 32 + 32 * (i - c.first)

/-- The link word of a chain buffer: the next buffer's address, 0 for none; the position of its first byte; zeros; and the CRC-32C
of all these in the last 4 bytes (log 1306). -/
def linkBytes (next pos : Nat) : List Byte :=
  let l := leBytes 8 next ++ leBytes 4 pos ++ List.replicate 16 0
  l ++ leBytes 4 (crc32c l)

/-- Chains are written on the queue spill port. -/
def State.putLink (s : State) (c : Chain) (next : Nat) : State := s.dramPut 10 (s.bufAddr c.handle) (linkBytes next (32 * c.first))

/-- The link word of a chain buffer holds its CRC. -/
def State.linkOk (s : State) (c : Chain) : Bool :=
  let l := memRead 0 s.dram (s.bufAddr c.handle) 32
  leNat (l.drop 28) = crc32c (l.take 28)

/-- A word as a read finds it: its data lies in DRAM where the word lies in the middle (R236). -/
def State.wordNow (s : State) (q i : Nat) : QWord :=
  let x := s.queue q
  let w := x.word i
  if x.headEnd ≤ i ∧ i < x.midEnd then match chainAddr s q i with
    | some a => { w with data := memRead 0 s.dram a 32 }
    | none => w
  else w

/-- The P2 buffer that the fabric has been granted and has not used yet. -/
def State.fabricHas (s : State) : Option Word :=
  match tget? s.answers 0 with
  | some (c, h) => if c = Code.done ∧ handlePool h = 2 then some h else none
  | none => none

/-- A P2 buffer for a chain: one already granted, or one that requester 0 asks for; while its ask waits there is none (R237, R252,
R257). -/
def State.fabricBuf (s : State) : Option Word × State :=
  let s := if s.fabricHas.isSome || (s.pool 2).waiting.any (·.r = 0) then s else s.arbitrate 6 2 [⟨0, false⟩]
  match s.fabricHas with
  | some h => (some h, { s with answers := tdel s.answers 0 })
  | none => (none, s)

/-- A new buffer at the end of a chain, for the word that comes next to the middle; its predecessor's link names it. -/
def State.newChain (s : State) (q : Nat) : Bool × State :=
  let r := s.fabricBuf
  match r.1 with
  | none => (false, r.2)
  | some h =>
    let s := r.2
    let x := s.queue q
    let c : Chain := ⟨h, x.midEnd, 1⟩
    let s := match x.chain.getLast? with
      | some b => s.putLink b (s.bufAddr h)
      | none => s
    (true, ((s.putLink c 0).setQueue q { x with chain := x.chain ++ [c] }).bumpFld Adr.QF_CHAIN_BUF 0 32 1)

/-- Makes room for one more word at the end of the middle: in the last chain buffer, or in a new P2 buffer (R237). -/
def State.chainRoom (s : State) (q : Nat) : Bool × State :=
  let x := s.queue q
  match x.chain.getLast? with
  | some c =>
    if c.n < 127 ∧ c.first + c.n = x.midEnd then
      (true, s.setQueue q { x with chain := x.chain.dropLast ++ [{ c with n := c.n + 1 }] })
    else s.newChain q
  | none => s.newChain q

/-- Drains n words of the tail store to the end of the middle; where no chain buffer can be had, the drain waits (R236, R237). -/
def State.drainWords (s : State) (q : Nat) : Nat → State
  | 0 => s.modQueue q fun x => { x with drainWait := false }
  | n + 1 =>
    match s.chainRoom q with
    | (false, s) => s.modQueue q fun x => { x with drainWait := true }
    | (true, s) =>
      let i := (s.queue q).midEnd
      let s := s.checkWord q i
      let s := match chainAddr s q i with
        | some a => s.dramPut 10 a ((s.queue q).word i).data
        | none => s
      (s.modQueue q fun x => { x with midEnd := x.midEnd + 1, drained := true }).drainWords q n

/-- Whole words of the tail store. -/
def Queue.tailWhole (x : Queue) : Nat := x.tail / 32 - x.midEnd

/-- The drain of a tail store that holds SPILL_NOW whole words (R236 step 3). -/
def State.spill (s : State) (q : Nat) : State :=
  let x := s.queue q
  if !s.qNoSpill q && !x.drainWait && x.headEnd < x.total && s.qSpillNow q ≤ x.tailWhole && 0 < x.tailWhole then
    s.drainWords q x.tailWhole
  else s

/-- A buffer of a chain returns to pool P2 (R234). -/
def State.freeChain (s : State) (c : Chain) : State :=
  (s.freeBuf 0 c.handle false).2.setFld Adr.QF_CHAIN_BUF 0 32 (s.fld Adr.QF_CHAIN_BUF 0 32 - 1)

/-- With no middle, words move from the tail store to a head store with room (R236 step 4). -/
def State.pull (s : State) (q : Nat) : State :=
  let x := s.queue q
  if x.midEnd ≤ x.headEnd then
    let room := s.qHead q - x.headWords
    let n := min room (x.total - x.headEnd)
    s.setQueue q { x with headEnd := x.headEnd + n, midEnd := x.headEnd + n }
  else s

/-! ### Enqueue and EOP (R229, R236 to R240) -/

/-- Why a new word cannot enter: the limit of R239, or full stores (R237, R240). -/
inductive Full
  | limit | stores
  deriving DecidableEq, Repr

/-- The depth that no queue passes: QF_Q_LIMIT, and 2²⁶ words where that is 0 (R228, R239). -/
def State.qDepthMax (s : State) (q : Nat) : Nat := if s.qLimit q = 0 then 2 ^ 26 else s.qLimit q

def State.full (s : State) (q : Nat) : Option Full :=
  let x := s.queue q
  if s.qDepthMax q < x.tail / 32 + 1 - x.base then some .limit
  else if s.qNoSpill q then
    (if s.qHead q + s.qTailW q ≤ x.words.length then some .stores else none)
  else if x.midEnd ≤ x.headEnd ∧ x.total ≤ x.headEnd ∧ x.headWords < s.qHead q then none
  else if s.qTailW q ≤ x.tailWords then some .stores
  else none

/-- A producer stalls (R237, R239, R240). -/
def State.stallAt (s : State) (q : Nat) (why : Full) : State :=
  match (s.queue q).stall with
  | some _ => s
  | none =>
    let s := s.modQueue q fun x => { x with stall := some (s.clk.now, why = .stores), stalled := x.stalled || why = .stores }
    match why with
    | .limit => s
    | .stores =>
      let s := s.qEvent q 1
      if s.qNoSpill q && s.qClass q = 0 then (s.qEvent q 2).reportHw 5 2 (target 10 q) q else s

/-- The cycles of a stall that lasts are counted so far (R237). -/
def State.flushStall (s : State) (q : Nat) : State :=
  match (s.queue q).stall with
  | none => s
  | some (t, b) =>
    (s.modQueue q fun x => { x with stall := some (s.clk.now, b) }).bumpBy (Adr.QF_Q_CNT_STALL q) (s.clk.now - t)

/-- A stall ends and its cycles are counted (R237). -/
def State.unstall (s : State) (q : Nat) : State :=
  if (s.queue q).stall.isSome then (s.flushStall q).modQueue q fun x => { x with stall := none } else s

/-- Adds bytes to the last, partly filled word; the caller has made sure that they fit. -/
def Queue.fill (x : Queue) (l : List Byte) (poison : Bool) : Queue :=
  let i := x.tail / 32
  let w := x.word i
  let w' := mkWord (w.data.take (x.tail % 32) ++ l) (w.poison || poison)
  { x.setWord i w' with tail := x.tail + l.length, enq := x.enq + l.length }

/-- Starts a new word at TAIL with its first bytes: in the head store, or in the tail store (R236). -/
def Queue.start (x : Queue) (l : List Byte) (poison : Bool) : Queue :=
  { x with words := x.words ++ [mkWord l poison], tail := x.tail + l.length, enq := x.enq + l.length }

/-- Enqueues bytes word by word; what does not fit is left to the producer, who stalls. `fuel` bounds the words. -/
def State.enqWords (s : State) (q : Nat) (poison : Bool) : Nat → List Byte → State
  | 0, _ => s
  | _, [] => s
  | n + 1, l =>
    let x := s.queue q
    if x.tail % 32 ≠ 0 then
      let k := 32 - x.tail % 32
      ((s.setQueue q (x.fill (l.take k) poison)).spill q).enqWords q poison n (l.drop k)
    else match s.full q with
      | some why => (s.stallAt q why).modQueue q fun x => { x with backlog := .bytes l poison :: x.backlog }
      | none =>
        let s := s.setQueue q (x.start (l.take 32) poison)
        ((s.pull q).spill q).enqWords q poison n (l.drop 32)

/-- Bytes into a queue whose producer is not stalled; an egress queue notes its largest unsent count (R320). -/
def State.enqBytes (s : State) (q : Nat) (l : List Byte) (poison : Bool) : State :=
  let s := s.enqWords q poison (l.length + 2) l
  let n := sat 0xFFFFFFFF ((s.queue q).tail - (s.queue q).read)
  if s.qCons q = 1 ∧ (s.reg (Adr.SCH_Q_HWM_UNSENT q)).toNat < n then s.setRegN (Adr.SCH_Q_HWM_UNSENT q) n else s

/-- Under STRICT every write of every agent is followed by a FENCE_WR (R39). -/
def State.strictFence (s : State) (f : PktFence) : PktFence := if f = .none && s.flag Adr.GLB_ORDER 0 then .wr else f

/-- The end of a packet (R229): TAIL rounds up, the packet waits for its notice, the lock is freed. A reference packet's
buffer passes into transit (R261). -/
def State.eopNow (s : State) (q tag : Nat) (fence : PktFence) (handle : Option (Word × Nat)) : State :=
  let x := s.queue q
  match x.lock with
  | none => s
  | some (prod, start) =>
    let stop := (x.tail + 31) / 32 * 32
    let p : Pkt := ⟨prod, start, x.tail - start, tag, stop, handle, s.strictFence fence, false, false, false, false, 0, 0⟩
    let s := s.setQueue q { x with tail := stop, pkts := x.pkts ++ [p], lock := none }
    let s := match handle with
      | some (h, _) => s.setOwner h (0x8000 + q)
      | none => s
    s.spill q

/-- Does what a stalled producer still held, as far as there is room. `fuel` bounds the operations. -/
def State.pump (s : State) (q : Nat) : Nat → State
  | 0 => s
  | n + 1 =>
    let x := s.queue q
    match x.backlog with
    | [] => s.unstall q
    | .bytes l p :: t =>
      if l = [] then ((s.setQueue q { x with backlog := t }).pump q n)
      else if (s.full q).isSome ∧ x.tail % 32 = 0 then s
      else
        let s := (s.unstall q).setQueue q { x with backlog := t, stall := none }
        let s := s.enqBytes q l p
        if (s.queue q).stall.isSome then s else s.pump q n
    | .eop tag fence h :: t =>
      ((s.setQueue q { x with backlog := t }).eopNow q tag fence h).pump q n
    | .start prod :: t => (s.setQueue q { x with backlog := t, lock := some (prod, x.tail) }).pump q n

/-- Why an operation on a queue is refused at once: not enabled (R503), or its chain walk runs (R245). -/
def State.qRefuse (s : State) (q : Nat) : Option Nat :=
  if 4096 ≤ q || !s.qEnabled q then some Code.badTarget
  else if (s.queue q).walk then some Code.notNow
  else none

/-- The fabric's answer to the last operation of its rows: code and value. -/
def State.fabAns (s : State) (code value : Nat) : State :=
  { s with rd := tput s.rd 3 [BitVec.ofNat 32 code, BitVec.ofNat 32 value] }

/-- A fenced packet of the producer still waits for its notice (R242). -/
def Queue.fenceWaits (x : Queue) (prod : Nat) : Bool := x.pkts.any fun p => p.prod = prod && p.fence != .none && !p.issued

/-- The waiting producer that a free lock goes to, in round-robin order from the pointer (R230). -/
def nextWaiter (x : Queue) : Option Nat :=
  let l := x.waiters.filter fun p => !x.fenceWaits p
  match least? (l.filter (x.ptr ≤ ·)) with
  | some m => some m
  | none => least? l

/-- A packet that ends at once, or when a stall ends (R229, R239). -/
def State.endPkt (s : State) (q tag : Nat) (fence : PktFence) (h : Option (Word × Nat)) : State :=
  if (s.queue q).backlog ≠ [] then s.modQueue q fun x => { x with backlog := x.backlog ++ [.eop tag fence h] }
  else s.eopNow q tag fence h

/-- The free lock is granted to waiting producers, one after another (R230): one that waits with a whole packet sends it. `fuel`
bounds the packets. -/
def State.grant (s : State) (q : Nat) : Nat → State
  | 0 => s
  | n + 1 =>
    let x := s.queue q
    if x.lock.isSome || x.walk then s
    else match nextWaiter x with
      | none => s
      | some p =>
        let out := x.waiters.filter (· ≠ p)
        let y := { x with lock := some (p, x.tail), ptr := (p + 1) % 15, waiters := out }
        match x.held.find? fun h => h.prod = p with
        | none => s.setQueue q y
        | some h =>
          let left := x.held.erase h
          let y := { y with held := left, waiters := if left.any (fun r => r.prod = p) then out ++ [p] else out }
          (((s.setQueue q y).enqBytes q h.bytes h.poison).endPkt q h.tag h.fence none).grant q n

def State.grantLock (s : State) (q : Nat) : State := s.grant q ((s.queue q).held.length + 1)

/-- Goes on with what producers wait for, after room was made (R237, R239) or the lock was freed (R230). -/
def State.pumpAll (s : State) (q : Nat) : State := (s.pump q (2 * (s.queue q).backlog.length + 4)).grantLock q

/-- The queue is not one that operations and packets may name (R503). -/
def State.noQueue (s : State) (q : Nat) : Bool := 4096 ≤ q || !s.qEnabled q

/-- A packet started now would take the lock at once. -/
def State.lockFree (s : State) (q prod : Nat) : Bool :=
  (s.qRefuse q).isNone && (s.queue q).lock.isNone && (s.queue q).waiters = [] && !(s.queue q).fenceWaits prod

/-- Whether a producer may enqueue in a queue: in queues 0 to 7 only the one that the table of R243 names. -/
def mayEnqueue (q prod : Nat) : Bool := 8 ≤ q || (q < 4 && prod = 13) || (q = 4 && prod = 14)

/-- Packet starts of one cycle (R230): of the producers that ask for a free lock the one with the lowest index takes it, and the
others wait; where producers wait already, the new ones join them. One that R243 does not allow is refused, and so is one that
holds the lock. -/
def State.pktStart (s : State) (q : Nat) (prods : List Nat) : Nat × State :=
  if s.noQueue q then (Code.badTarget, s)
  else
    let x := s.queue q
    let ask := prods.filter fun p => mayEnqueue q p && !x.lock.any (·.1 = p)
    let code := if prods.any (fun p => !mayEnqueue q p) then Code.badTarget
      else if prods.any (fun p => x.lock.any (·.1 = p)) then Code.notNow else Code.done
    let first := if x.lock.isNone && x.waiters = [] && !x.walk then least? (ask.filter fun p => !x.fenceWaits p) else none
    match first with
    | some p => (code, s.setQueue q { x with lock := some (p, x.tail), ptr := (p + 1) % 15, waiters := ask.filter (· ≠ p) })
    | none => (code, (s.setQueue q { x with waiters := x.waiters.filter (fun p => !ask.contains p) ++ ask }).grantLock q)

def State.holdsLock (s : State) (q prod : Nat) : Bool := (s.queue q).lock.any (·.1 = prod)

/-- The bytes of the open packet, those that a stall still holds back included. -/
def Queue.openBytes (x : Queue) : List Byte :=
  let now := match x.lock with
    | some (_, a) => ((x.words.drop (a / 32 - x.base)).flatMap (·.data)).take (x.tail - a)
    | none => []
  x.backlog.foldl (fun l o => match o with
    | .bytes b _ => l ++ b
    | .eop .. => []
    | .start _ => []) now

/-- Their number. -/
def Queue.openLen (x : Queue) : Nat :=
  x.backlog.foldl (fun n o => match o with
    | .bytes b _ => n + b.length
    | .eop .. => 0
    | .start _ => 0) (match x.lock with
    | some (_, a) => x.tail - a
    | none => 0)

/-- The longest packet (R229). -/
def pktMax : Nat := 2 ^ 28 - 1

/-- Bytes from the producer that holds the lock (R236); behind earlier bytes of a stall they wait. Bytes that would make the packet
longer than R229 allows are refused (log 1308). -/
def State.enqueue (s : State) (q prod : Nat) (l : List Byte) (poison : Bool) : Nat × State :=
  match s.qRefuse q with
  | some c => (c, s)
  | none =>
    if !s.holdsLock q prod then (Code.notNow, s)
    else if pktMax < (s.queue q).openLen + l.length then (Code.tooLong, s)
    else if (s.queue q).backlog ≠ [] then
      (Code.done, s.modQueue q fun x => { x with backlog := x.backlog ++ [.bytes l poison] })
    else (Code.done, s.enqBytes q l poison)

/-- The pool requester of a producer (R230, R253): for the DMA engine that of the channel. -/
def producerReq (prod ch : Nat) : Nat := if prod = 0 then 12 else if prod = 12 then 16 + ch % 32 else prod

/-- EOP from the producer that holds the lock (R229). A reference packet is one word whose bytes 0 to 3 hold the handle, and its
producer must own the buffer (R261); `ecc` says that the read of the owner entry is uncorrectable (R260). -/
def State.eop (s : State) (q prod tag : Nat) (fence : PktFence) (ref : Option Nat) (ecc : Bool := false) : Nat × State :=
  match s.qRefuse q with
  | some c => (c, s)
  | none =>
    let x := s.queue q
    if !s.holdsLock q prod then (Code.notNow, s)
    else if x.openLen = 0 ∧ x.backlog = [] then (Code.outOfRange, s)
    else match ref with
      | none => (Code.done, (s.endPkt q tag fence none).grantLock q)
      | some ch =>
        let h := BitVec.ofNat 32 (leNat (x.openBytes.take 4))
        let r := producerReq prod ch
        if 32 < x.openLen ∨ s.badHandle h then (Code.outOfRange, s)
        else if ecc || ownReserved (s.owner h) then
          (Code.notOwner, (s.raise Adr.BP_EVT 3).reportHw 6 3 (target 9 2) h.toNat)
        else if s.owner h ≠ r then (Code.notOwner, s)
        else (Code.done, (s.endPkt q tag fence (some (h, r))).grantLock q)

/-- The packet start of a producer that may still have to end an earlier packet of its own: it starts behind that one. -/
def State.startNext (s : State) (q prod : Nat) : State :=
  if s.holdsLock q prod && (s.queue q).backlog ≠ [] then s.modQueue q fun x => { x with backlog := x.backlog ++ [.start prod] }
  else (s.pktStart q [prod]).2

/-- The position at which what producers still have to send would end. -/
def Queue.pendEnd (x : Queue) : Nat :=
  let up (n : Nat) : Nat := (n + 31) / 32 * 32
  let one (a : Nat) (o : QOp) : Nat := match o with
    | .bytes l _ => a + l.length
    | .eop _ _ _ => up a
    | .start _ => a
  x.held.foldl (fun a h => up (a + h.bytes.length)) (up (x.backlog.foldl one x.tail))

/-- Whole packets from one producer, in order: each takes the lock, or waits for it (R230); none is lost (R239). -/
def State.sendAll (s : State) (q prod : Nat) (pkts : List (Nat × List Byte)) (fence : PktFence := .none)
    (poison : Bool := false) : Nat × State :=
  if s.noQueue q || !mayEnqueue q prod then (Code.badTarget, s)
  else
    let l : List HeldPkt := pkts.map fun p => ⟨prod, p.1, p.2, poison, fence⟩
    (Code.done, (s.modQueue q fun x => { x with
      held := x.held ++ l, waiters := if x.waiters.contains prod then x.waiters else x.waiters ++ [prod] }).grantLock q)

def State.sendPkt (s : State) (q prod tag : Nat) (l : List Byte) (poison : Bool := false) : Nat × State :=
  s.sendAll q prod [(tag, l)] .none poison

/-! ### Notices (R229) -/

/-- The DRAM port on which a producer writes (R274). -/
def producerPort (prod : Nat) : Nat :=
  if 5 ≤ prod ∧ prod ≤ 11 then prod - 2 else if prod = 12 then 11 else if prod = 13 then 12 else 10

/-- A write of a port has not been acknowledged (R279). -/
def State.portWaits (s : State) (port : Nat) : Bool :=
  s.dch.any fun (c : Nat × DChan) => c.2.wait.any fun (w : Bool × DReq) => w.1 && w.2.port = port

/-- A word of the packet is poisoned. -/
def Queue.pktPoison (x : Queue) (p : Pkt) : Bool :=
  ((x.words.drop (p.start / 32 - x.base)).take ((p.stop - p.start) / 32)).any (·.poison)

/-- The oldest packet without a notice, if every word of it can be read and its fence is complete (R229, R242). -/
def State.issue (s : State) (q : Nat) : State :=
  let x := s.queue q
  match x.pkts.find? (fun p => !p.issued) with
  | none => s
  | some p =>
    if x.tail < p.stop || (p.fence = .wr && s.portWaits (producerPort p.prod)) then s
    else
      let s := if p.fence = .host then s.readBack else s
      let ps := x.pkts.map fun r => if r.start = p.start then
        { r with issued := true, poison := x.pktPoison p, seq := x.seq % 65536, at_ := s.clk.now } else r
      ((s.setQueue q { x with pkts := ps, seq := x.seq + 1 }).bump (Adr.QF_Q_CNT_PKT q)).grantLock q

/-- The words of a notice (R229). -/
def noticeWord (q : Nat) (p : Pkt) (i : Nat) : Nat :=
  if i = 0 then p.start % 2 ^ 32
  else if i = 1 then p.len % 2 ^ 28 + 2 ^ 28 * b2n p.poison + 2 ^ 29 * b2n p.replay
  else if i = 2 then p.tag
  else q % 65536 + 65536 * p.seq

def Queue.oldest (x : Queue) : Option Pkt := x.pkts.find? fun p => p.issued && !p.taken

/-- Marks a packet's notice as taken, and passes a reference packet's buffer to the consumer (R261). -/
def State.takeNotice (s : State) (q : Nat) : State :=
  let x := s.queue q
  match x.oldest with
  | none => s
  | some p =>
    let s := s.setQueue q
      { x with pkts := x.pkts.map fun r => if r.start = p.start then { r with taken := true } else r }
    match p.handle with
    | none => s
    | some (h, r) =>
      if p.replay then s
      else
        let c := consumerReq (s.qCons q) (s.qConsIdx q)
        ((s.setOwner h c).uncharge r (handlePool h)).charge c (handlePool h)

/-- The packet being read: taken, and not read to its end. -/
def Queue.current (x : Queue) : Option Pkt := x.pkts.find? fun p => p.taken && x.read < p.stop

/-! ### Read and release -/

/-- Bytes of taken packets between two positions; the fill of a packet's last word counts for nothing. -/
def Queue.bytesIn (x : Queue) (a b : Nat) : Nat :=
  (x.pkts.filter (·.taken)).foldl (fun n p => n + (min b (p.start + p.len) - max a p.start)) 0

/-- Frees the words and chain buffers that lie wholly before REL (R234). -/
def State.releaseTo (s : State) (q c : Nat) : State :=
  let x := s.queue q
  let gone := c / 32 - x.base
  let dead := x.chain.filter fun b => b.first + b.n ≤ c / 32
  let s := s.setQueue q { x with
    rel := c,
    words := x.words.drop gone,
    pkts := x.pkts.filter fun p => !(p.taken && p.stop ≤ c),
    chain := x.chain.filter fun b => !(b.first + b.n ≤ c / 32) }
  (iter dead (fun b s => s.freeChain b) s).pumpAll q

/-- A link word whose CRC is wrong poisons every word of its buffer and of the rest of the chain, and POISON is raised (R237). -/
def State.poisonChain (s : State) (q first : Nat) : State :=
  let x := s.queue q
  match (List.range' first (x.midEnd - first)).filter fun i => x.base ≤ i && !(x.word i).poison with
  | [] => s
  | i :: t => (iter (i :: t) (fun j s => s.poisonMark q j) s).poisonRaise q i

/-- The check of the link word of the buffer that holds word i. -/
def State.linkCheck (s : State) (q i : Nat) : State :=
  match (s.queue q).chain.find? fun c => c.first ≤ i && i < c.first + c.n with
  | some c => if s.linkOk c then s else s.poisonChain q c.first
  | none => s

/-- Takes words back from the DRAM middle into a head store with room: the bytes in DRAM, poisoned where the read is uncorrectable
(`bad`, by number) or the parity that the fabric computed at entry does not hold (R226, R236). -/
def State.refillWords (s : State) (q : Nat) (bad : List Nat) : Nat → Nat → State
  | 0, _ => s
  | n + 1, k =>
    if (s.queue q).midWords = 0 ∨ s.qHead q ≤ (s.queue q).headWords then s
    else
      let i := (s.queue q).headEnd
      let s := s.linkCheck q i
      let w := s.wordNow q i
      let s := s.modQueue q fun x => { x.setWord i w with headEnd := i + 1 }
      let s := if bad.contains k then s.poisonWord q i else s.checkWord q i
      s.refillWords q bad n (k + 1)

/-- A read finds its word in the head store: an empty one is refilled first, from the middle or the tail store (R236 step 4). -/
def State.headFill (s : State) (q : Nat) : State :=
  if (s.queue q).headEnd ≤ (s.queue q).read / 32 then (s.refillWords q [] 1 0).pull q else s

/-- READ moves to the next word, and the head store is refilled from the tail store where there is no middle (R236). -/
def State.stepRead (s : State) (q : Nat) : State :=
  let x := s.queue q
  let nxt := (x.read / 32 + 1) * 32
  (s.setQueue q { x with
    read := nxt, deq := x.deq + x.bytesIn x.read nxt, headEnd := max x.headEnd (nxt / 32), midEnd := max x.midEnd (nxt / 32) }).pull q

/-- What follows a read that has come to READ: AUTOREL releases a packet whose last word it read (R234). -/
def State.afterWord (s : State) (q : Nat) : State :=
  let x := s.queue q
  if s.qAutoRel q && x.pkts.any (fun p => p.taken && p.stop = x.read) then s.releaseTo q x.read else s.pumpAll q

/-- Reads one word at READ from the head store and advances (R236). -/
def State.advance (s : State) (q : Nat) : State := (s.stepRead q).afterWord q

/-- A consumer inside the device reads n words at READ, each with its parity check (R226, R236). -/
def State.readWords (s : State) (q : Nat) : Nat → List QWord × State
  | 0 => ([], s)
  | n + 1 =>
    let s := s.headFill q
    let i := (s.queue q).read / 32
    let s := s.checkWord q i
    let w := (s.queue q).word i
    let r := (s.stepRead q).readWords q n
    (w :: r.1, r.2)

/-- READ comes to the start of the packet that is read next. -/
def State.readFrom (s : State) (q c : Nat) : State :=
  s.modQueue q fun x => { x with
    read := max x.read c, headEnd := max x.headEnd (c / 32), midEnd := max x.midEnd (c / 32) }

/-- The bytes that a reference packet's word stands for: those of the buffer, as many as bytes 4 to 7 say and as fit in it (R261). -/
def State.refBytes (s : State) (h : Word) (word : List Byte) : List Byte :=
  memRead 0 s.dram (s.bufAddr h) (min (leNat ((word.drop 4).take 4)) (256 * poolUnits (handlePool h)))

/-- A consumer inside the device has read a packet to its end: AUTOREL releases it (R234). -/
def State.endRead (s : State) (q c : Nat) : State := if s.qAutoRel q then s.releaseTo q c else s.pumpAll q

/-- A consumer inside the device takes the oldest notice and reads its packet whole: the packet, its bytes and whether any
word is poisoned (R227, R229). An ENGINE consumer reads the buffer of a reference packet and frees it (R261). -/
def State.readPkt (s : State) (q : Nat) : Option (Pkt × List Byte × Bool) × State :=
  match (s.queue q).oldest with
  | none => (none, s)
  | some p =>
    let s := (s.takeNotice q).readFrom q p.start
    let r := s.readWords q ((p.stop - p.start) / 32)
    let bytes := (r.1.flatMap (·.data)).take p.len
    let s := r.2.endRead q p.stop
    let bad := r.1.any (·.poison)
    match p.handle with
    | some (h, _) =>
      if s.qCons q = 2 then
        (some (p, s.refBytes h bytes, bad), if p.replay then s else (s.freeBuf (consumerReq 2 (s.qConsIdx q)) h).2)
      else (some (p, bytes, bad), s)
    | none => (some (p, bytes, bad), s)

/-- The position that a 32-bit Clasp names at or after REL (R228). -/
def Queue.extend (x : Queue) (c : Nat) : Nat := x.rel + (c + 2 ^ 32 - x.rel % 2 ^ 32) % 2 ^ 32

/-- A release to a position, which READ has reached (R234). -/
def State.releaseAt (s : State) (q c : Nat) : Nat × State :=
  if c ≤ (s.queue q).read then (Code.done, s.releaseTo q c) else (Code.outOfRange, s)

/-- A release to a Clasp (R234). -/
def State.release (s : State) (q clasp : Nat) : Nat × State :=
  match s.qRefuse q with
  | some c => (c, s)
  | none => s.releaseAt q ((s.queue q).extend clasp)

/-! ### Rewinds (R232, R233) -/

/-- The taken boundary of R232. -/
def Queue.tb (x : Queue) : Nat := (x.pkts.filter (·.taken)).foldl (fun m p => max m p.stop) x.rel

/-- Shortens a queue's bytes to a new TAIL; a last word that is now partly filled keeps the given bytes, and lies in the middle no
more (R232, R236). -/
def Queue.cutTo (x : Queue) (t : Nat) (part : List Byte) : Queue :=
  let up := (t + 31) / 32
  let ws := x.words.take (up - x.base)
  let ws := if t % 32 = 0 then ws else match ws.getLast? with
    | none => ws
    | some w => ws.dropLast ++ [mkWord part w.poison]
  let head := min x.headEnd up
  { x with
    tail := t, words := ws, headEnd := head, midEnd := max head (min x.midEnd (t / 32)),
    chain := (x.chain.filter fun b => !(t / 32 ≤ b.first)).map fun b => { b with n := min b.n (t / 32 - b.first) } }

/-- Packets that some producers still hold back are discarded with what they have sent. -/
def State.dropHeld (s : State) (q : Nat) (p : Nat → Bool) : State :=
  s.modQueue q fun x => { x with
    held := x.held.filter fun h => !p h.prod, waiters := x.waiters.filter fun w => !(p w && x.held.any fun h => h.prod = w) }

/-- The link word of a chain's last buffer names no next one after its successors `dead` have left the chain (R237). -/
def State.cutLink (s : State) (q : Nat) (dead : List Chain) : State :=
  match (s.queue q).chain.getLast? with
  | some b => if dead = [] then s else s.putLink b 0
  | none => s

/-- A producer rewind to a position (R232). -/
def State.rewindTo (s : State) (q c : Nat) : State :=
  let x := s.queue q
  let tb := x.tb
  let t := max c tb
  let t := match x.pkts.find? (fun p => !p.taken && p.start < t && t < p.stop) with
    | some p => p.start
    | none => t
  let goneP := x.pkts.filter fun p => !p.taken && t ≤ p.start
  let lock := match x.lock with
    | some (p, st) => if st < t then some (p, st) else none
    | none => none
  let dead := x.chain.filter fun b => t / 32 ≤ b.first
  let y := { (x.cutTo t ((s.wordNow q (t / 32)).data.take (t % 32))) with
    pkts := x.pkts.filter fun p => !(!p.taken && t ≤ p.start),
    lock := lock, backlog := [], cut := x.cut || c < tb }
  let s := ((s.setQueue q y).bump (Adr.QF_Q_CNT_REWIND q)).cutLink q dead
  let s := iter goneP (fun p s => match p.handle with
    | some (h, r) => if p.replay then s else s.setOwner h r
    | none => s) s
  let s := iter dead (fun b s => s.freeChain b) s
  let s := if c < tb then s.qEvent q 3 else s
  (s.unstall q).grantLock q

/-- A producer rewind to a position, which lies at or before TAIL (R232). -/
def State.rewindAt (s : State) (q c : Nat) : Nat × State :=
  if c ≤ (s.queue q).tail then (Code.done, s.rewindTo q c) else (Code.outOfRange, s)

/-- A producer rewind to a Clasp (R232). -/
def State.rewind (s : State) (q clasp : Nat) : Nat × State :=
  match s.qRefuse q with
  | some c => (c, s)
  | none => s.rewindAt q ((s.queue q).extend clasp)

/-- A consumer rewind to a position: the start of a packet that was taken (R233). -/
def State.consRewindAt (s : State) (q c : Nat) : Nat × State :=
  let x := s.queue q
  if c ≤ x.read ∧ x.pkts.any (fun p => p.taken && p.start = c) then
    let n := (x.pkts.filter fun p => p.taken && c ≤ p.start).length
    let r := x.pkts.foldl (fun (acc : List Pkt × Nat) p =>
      if p.taken && c ≤ p.start then
        (acc.1 ++ [{ p with taken := false, issued := true, poison := x.pktPoison p, replay := true, seq := acc.2 % 65536, at_ := s.clk.now }], acc.2 + 1)
      else (acc.1 ++ [p], acc.2)) ([], x.seq)
    let head := s.qHead q
    let he := if x.headEnd - c / 32 ≤ head then x.headEnd else if x.chain = [] then c / 32 + head else c / 32
    let me := if x.chain = [] then he else max x.midEnd he
    let s := s.setQueue q { x with read := c, pkts := r.1, seq := r.2, headEnd := he, midEnd := me }
    (Code.done, ((s.bumpBy (Adr.QF_Q_CNT_PKT q) n).bump (Adr.QF_Q_CNT_REWIND q)))
  else (Code.outOfRange, s)

/-- A consumer rewind to a Clasp (R233). -/
def State.consRewind (s : State) (q clasp : Nat) : Nat × State :=
  match s.qRefuse q with
  | some c => (c, s)
  | none => s.consRewindAt q ((s.queue q).extend clasp)

/-! ### Refill, reset, snapshots -/

/-- HEAD_REFILL: words taken back from the middle, as the read returns them; `linkBad` says that the link word's read fails. -/
def State.headRefill (s : State) (q words : Nat) (bad : List Nat) (linkBad : Bool) : State :=
  let x := s.queue q
  let s := if linkBad then match x.chain.find? fun c => c.first ≤ x.headEnd && x.headEnd < c.first + c.n with
    | some c => s.poisonChain q c.first
    | none => s else s
  ((s.refillWords q bad words 0).pull q).pumpAll q

/-- The reset of one queue (R245): a queue with nothing in it, whose chain buffers are left to the walk; buffers in transit
are freed and uncharged (R261). -/
def State.resetQueue (s : State) (q : Nat) : State :=
  let x := s.queue q
  let s := iter (x.pkts.filter fun p => !p.taken) (fun p s => match p.handle with
    | some (h, r) => if p.replay then s else (s.uncharge r (handlePool h)).putBack h
    | none => s) s
  s.setQueue q { Queue.fresh with chain := x.chain, walk := true }

/-- The chain walk of a reset ends (R245). -/
def State.walkDone (s : State) (q : Nat) : State :=
  let x := s.queue q
  if x.walk then
    let s := iter x.chain (fun b s => s.freeChain b) s
    (s.setQueue q { Queue.fresh with held := x.held, waiters := x.waiters }).grantLock q
  else s

/-- A reset of the whole fabric and of the pools (R245, R251): every queue fresh, every buffer free, nothing held; a walk ends with
it, and the reset that began it is done. -/
def State.resetFabric (s : State) : State :=
  let s := iter (s.qf.filter fun (x : Nat × Queue) => x.2.walk) (fun x s => s.setFld (Adr.QF_Q_OPRES x.1) 0 9 Code.done) s
  let s := { s with qf := [], pools := [], answers := tdel s.answers 0 }
  let s := s.setRegN Adr.QF_CHAIN_BUF 0
  iter (List.range 64) (fun r s => s.setRegN (Adr.BP_R_HELD r) 0) s

/-- The shadow registers of one queue at a tick (R244), and its threshold loop (R238). -/
def State.snapQueue (s : State) (q : Nat) : State :=
  let x := s.queue q
  let s := (((s.setRegN (Adr.QF_Q_SNAP_DEPTH q) x.depth).setRegN (Adr.QF_Q_SNAP_PKTS q) x.untaken).setRegN
    (Adr.QF_Q_SNAP_ENQ q) (sat 0xFFFFFFFF x.enq)).setRegN (Adr.QF_Q_SNAP_DEQ q) (sat 0xFFFFFFFF x.deq)
  let x := s.queue q
  let now := s.qSpillNow q
  let adapt := s.flag Adr.QF_CTL 0 && s.flag Adr.PWR_LOOP 2
  let sn := if !adapt then none
    else if x.stalled then some (max 8 (now - s.qTailW q / 8))
    else if x.drained then some (min (s.qSpillTh q) (now + 8))
    else x.spillNow
  s.setQueue q { x with
    enq := 0, deq := 0, stalled := x.stall.any (·.2), drained := false, spillNow := if sn = some (s.qSpillTh q) then none else sn }

/-- The queues whose shadows can differ from 0: those with content, and those with a shadow still set. -/
def State.liveQueues (s : State) : List Nat :=
  let shadows := s.regs.filterMap fun (r : Nat × Word) =>
    if 0x100000 ≤ r.1 ∧ r.1 < 0x200000 ∧ 0x30 ≤ r.1 % 256 ∧ r.1 % 256 < 0x40 then some ((r.1 - 0x100000) / 256) else none
  ((s.qf.map (·.1)) ++ shadows).eraseDups

def State.snapQueues (s : State) : State := iter s.liveQueues (fun q s => s.snapQueue q) s

/-! ### Register views (R246, R247) -/

/-- QF_Q_STAT; SPILL_NOW of a queue that is not enabled reads as the register's reset value. -/
def Queue.stat (s : State) (q : Nat) : Nat :=
  let x := s.queue q
  b2n x.lock.isSome + 2 * b2n (0 < x.midWords) + 4 * b2n x.stall.isSome + 8 * b2n x.poisonSeen + 16 * b2n x.cut +
  32 * b2n x.walk + 64 * (if s.qEnabled q then s.qSpillNow q / 8 % 1024 else 0) + 65536 * sat 65535 x.untaken

/-- The valid bytes of the word at READ, and whether it ends its packet (QF_Q_RFLAGS). -/
def Queue.rflags (x : Queue) : Nat :=
  match x.current with
  | none => 0
  | some p =>
    let i := x.read / 32
    let last := (i + 1) * 32 = p.stop
    let valid := if last then (if p.len % 32 = 0 then 32 else p.len % 32) else 32
    b2n (x.word i).poison + 2 * b2n last + 4 * (valid - 1)

/-! ### The meanings of the fabric's rows -/

/-- A host read of QF_Q_NOTICE at 0x6C (R246): the last word of the oldest untaken notice, which it takes. -/
def State.hostNotice (s : State) (f : Iface) (q : Nat) : Word × State :=
  if s.qCons q ≠ 0 then (0, s.accErr f (Adr.QF_Q_NOTICE q 3) false Code.notOwner)
  else match (s.queue q).oldest with
    | none => (0, s)
    | some p => (BitVec.ofNat 32 (noticeWord q p 3), s.takeNotice q)

/-- A host read of QF_Q_RDATA at 0x9C (R246): the last word at READ, and READ advances; `flip` says that the parity check
of the read finds the word wrong (R226). -/
def State.hostRdata (s : State) (f : Iface) (q : Nat) (flip : Bool) : Word × State :=
  if s.qCons q ≠ 0 then (0, s.accErr f (Adr.QF_Q_RDATA q 7) false Code.notOwner)
  else
    let x := s.queue q
    match x.current with
    | none => (0, s.accErr f (Adr.QF_Q_RDATA q 7) false Code.notNow)
    | some _ =>
      let i := x.read / 32
      let s := s.headFill q
      let s := if flip then s.poisonWord q i else s.checkWord q i
      (BitVec.ofNat 32 (leNat (((s.queue q).word i).data.drop 28)), s.advance q)

/-! ### Drains that wait (R237) -/

/-- A drain that waits can go on: the fabric has been granted a buffer, or pool P2 would grant one. -/
def State.drainReady (s : State) : Bool :=
  s.fabricHas.isSome || (!(s.pool 2).waiting.any (·.r = 0) && s.flag (Adr.BP_P_CTL 2) 0 && 0 < s.poolFree 2 &&
    s.held 0 + poolUnits 2 ≤ s.quota 0)

def State.resumeDrain (s : State) (q : Nat) : State :=
  if (s.queue q).drainWait && s.drainReady then (s.drainWords q (s.queue q).tailWhole).pumpAll q else s

/-- The drains that wait for a P2 buffer go on when one can be had, and their producers with them. -/
def State.resumeDrains (s : State) : State :=
  iter ((s.qf.filter fun (x : Nat × Queue) => x.2.drainWait).map (·.1)) (fun q s => s.resumeDrain q) s

end Sys2Proof.Machine
end

