-- ==== Sys2Proof/Machine/Links.lean ====
section
/-! DEFINITION. What several chapters share about streams and links: the lists bound to a stream (R502), the gangs of Landing
groups (R43), the back-channel's messages (R62, R338), and the lane training common to Landing and Crossing (R44, R45). -/

namespace Sys2Proof.Machine

/-! ### Streams -/

/-- Step lists whose SEQ_L_CTL.EN reads 1, rising. -/
def State.listsOn (s : State) : List Nat :=
  s.regs.filterMap fun r =>
    if 0x88000 ≤ r.1 ∧ r.1 < 0x89000 ∧ r.1 % 32 = 0 ∧ bit r.2 0 then some ((r.1 - 0x88000) / 32) else none

/-- KIND and NUM of a list's binding (R224). -/
def State.listKind (s : State) (l : Nat) : Nat := s.fld (Adr.SEQ_L_CTL l) 16 2
def State.listNum (s : State) (l : Nat) : Nat := s.fld (Adr.SEQ_L_CTL l) 18 6
def State.listClass (s : State) (l : Nat) : Nat := s.fld (Adr.SEQ_L_CTL l) 1 2
def State.listOn (s : State) (l : Nat) : Bool := s.flag (Adr.SEQ_L_CTL l) 0

/-- Every list bound to a stream of a kind: 0 Facet record, 1 codec context, 2 Facet playback. -/
def State.boundLists (s : State) (kind num : Nat) : List Nat :=
  (List.range 128).filter fun l => s.listKind l = kind && s.listNum l = num

/-- The stream runs (R502). -/
def State.streamRuns (s : State) (kind num : Nat) : Bool :=
  s.listsOn.any fun l => s.listKind l = kind && s.listNum l = num

/-- Every stream of a kind that runs. -/
def State.running (s : State) (kind : Nat) : List Nat :=
  ((s.listsOn.filter fun l => s.listKind l = kind).map s.listNum).eraseDups

/-- Whether count c is a tick of divisor d and phase p (R23). -/
def isTickOf (c d p : Nat) : Bool := d ≠ 0 && c % d = p

/-! ### Landing groups and gangs -/

def State.lg (s : State) (g : Nat) : LGroup := tget LGroup.fresh s.lnd g

def State.setLg (s : State) (g : Nat) (x : LGroup) : State := { s with lnd := tset LGroup.fresh s.lnd g x }

def State.modLg (s : State) (g : Nat) (f : LGroup → LGroup) : State := s.setLg g (f (s.lg g))

def State.xg (s : State) (g : Nat) : XGroup := tget XGroup.fresh s.xcv g

def State.setXg (s : State) (g : Nat) (x : XGroup) : State := { s with xcv := tset XGroup.fresh s.xcv g x }

def State.modXg (s : State) (g : Nat) (f : XGroup → XGroup) : State := s.setXg g (f (s.xg g))

/-- A Landing group that is fitted, enabled and powered. -/
def State.lgOn (s : State) (g : Nat) : Bool := g < s.nLnd && s.flag (Adr.LND_CTL g) 0 && s.domUp (14 + g)

def State.lgStream (s : State) (g : Nat) : Nat := s.fld (Adr.LND_FMT g) 12 2
def State.lgMode (s : State) (g : Nat) : Nat := s.fld (Adr.LND_CTL g) 1 2
def State.lgPos (s : State) (g : Nat) : Nat := s.fld (Adr.LND_CTL g) 10 2
def State.lgGang (s : State) (g : Nat) : Nat := s.fld (Adr.LND_CTL g) 12 2 + 1
def State.lgWidth (s : State) (g : Nat) : Nat := s.fld (Adr.LND_GEOM g) 0 16
def State.lgHeight (s : State) (g : Nat) : Nat := s.fld (Adr.LND_GEOM g) 16 16
def State.lgBandRows (s : State) (g : Nat) : Nat := s.fld (Adr.LND_FMT g) 8 4 + 1

/-- The groups of a group's gang: those enabled with a GANG_CNT that is not 0, and itself alone where its own is 0 (R43; three groups
have no room for two gangs). -/
def State.gang (s : State) (g : Nat) : List Nat :=
  if s.lgGang g = 1 then [g]
  else (List.range s.nLnd).filter fun h =>
    s.flag (Adr.LND_CTL h) 0 && s.lgGang h ≠ 1

/-- The group with GANG_POS = 0 (R43). -/
def State.owner_ (s : State) (g : Nat) : Nat := ((s.gang g).find? fun h => s.lgPos h = 0).getD g

/-- The group delivers data: UP or DEGRADED. -/
def State.lgUp (s : State) (g : Nat) : Bool := s.lgOn g && ((s.lg g).st = 5 || (s.lg g).st = 6)

/-! ### Codec contexts and engines -/

def State.cEn (s : State) (c : Nat) : Bool := c < s.nCtx && s.flag (Adr.COD_C_CTL c) 0
def State.cDec (s : State) (c : Nat) : Bool := s.flag (Adr.COD_C_CTL c) 1
def State.cClass (s : State) (c : Nat) : Nat := s.fld (Adr.COD_C_CTL c) 2 2
def State.cSrc (s : State) (c : Nat) : Nat := s.fld (Adr.COD_C_IO c) 12 2

def State.ce (s : State) (e : Nat) : CEngine := tget CEngine.fresh s.cod.eng e

def State.setCe (s : State) (e : Nat) (x : CEngine) : State :=
  { s with cod := { s.cod with eng := tset CEngine.fresh s.cod.eng e x } }

def State.modCe (s : State) (e : Nat) (f : CEngine → CEngine) : State := s.setCe e (f (s.ce e))

/-! ### The back-channel (R62, R338) -/

/-- A Crossing group in Ferry link mode that is enabled and powered. -/
def State.ferryOn (s : State) (x : Nat) : Bool :=
  x < s.nXcv && s.flag (Adr.XCV_CTL x) 0 && !s.flag (Adr.XCV_CTL x) 1 && s.domUp (17 + x)

def State.ferryUp (s : State) (x : Nat) : Bool := s.ferryOn x && (s.xg x).st = 6

/-- Puts a CONTROL message in a Crossing group's list of 16, or answers NOT_NOW (R338). -/
def State.ctlPut (s : State) (x : Nat) (m : List Byte) : Nat × State :=
  if s.ferryUp x && (s.xg x).ctl.length < 16 then
    (Code.done, s.modXg x fun c => { c with ctl := c.ctl ++ [m] })
  else (Code.notNow, s)

/-- The 16 bytes of a message to a sensor (R62). -/
def sensorMsg (type group seq arg tick : Nat) : List Byte :=
  [BitVec.ofNat 8 type, BitVec.ofNat 8 group, BitVec.ofNat 8 seq, 0] ++ leBytes 2 arg ++ [0, 0] ++ leBytes 6 tick ++ [0, 0]

/-- Sends a back-channel message of Landing group g; a disabled back-channel answers NOT_NOW. -/
def State.bcMsg (s : State) (g type arg : Nat) : Nat × State :=
  if !s.flag (Adr.LND_BC_CTL g) 0 then (Code.notNow, s)
  else
    let r := s.ctlPut (s.fld (Adr.LND_BC_CTL g) 1 2)
      (sensorMsg type (g + 4 * s.lgPos g) ((s.lg g).seq % 256) arg s.clk.count)
    if r.1 = Code.done then (r.1, r.2.modLg g fun x => { x with seq := (x.seq + 1) % 256 }) else r

/-! ### Lanes and training (R44 to R46, R50, R331) -/

def addLane (m k : Nat) : Nat := if hasLane m k then m else m + 2 ^ k

def delLane (m k : Nat) : Nat := if hasLane m k then m - 2 ^ k else m

/-- Every lane of m is in n. -/
def lanesIn (m n : Nat) : Bool := (List.range 8).all fun k => !hasLane m k || hasLane n k

def lanesAnd (m n : Nat) : Nat := (List.range 8).foldl (fun r k => if hasLane m k && hasLane n k then r + 2 ^ k else r) 0

def lanesOr (m n : Nat) : Nat := (List.range 8).foldl (fun r k => if hasLane m k || hasLane n k then r + 2 ^ k else r) 0

def lanesMinus (m n : Nat) : Nat := (List.range 8).foldl (fun r k => if hasLane m k && !hasLane n k then r + 2 ^ k else r) 0

/-- Sets the equaliser steps of some lanes in an EQ_STAT register, the others' kept (R45). -/
def State.setSteps (s : State) (a : Nat) (steps : List (Nat × Nat)) : State :=
  iter steps (fun x s => s.setFld a (4 * x.1) 4 x.2) s

/-- The steps at the start of a training with signal on some lanes: 0 for a lane without part, FIXED for a lane never
trained under FIXED_EN, the last step otherwise (R45). -/
def State.startSteps (s : State) (ctl stat n sig eqd : Nat) : State :=
  s.setSteps stat (((List.range n).map fun k =>
    (k, if !hasLane sig k then 0
      else if s.flag ctl 1 && !hasLane eqd k then s.fld ctl 4 4 else s.fld stat (4 * k) 4)))

/-- The step with the largest opening among 16, the lower winning a tie (R45). -/
def bestStep (o : List Nat) : Nat :=
  ((List.range 16).foldl (fun (b : Nat × Nat) k => if b.2 < o.getD k 0 then (k, o.getD k 0) else b) (0, o.getD 0 0)).1

/-- The step after one comparison with the steps on each side: present, below and above (R45). -/
def adaptStep (step hyst present below above : Nat) : Nat :=
  let down := 0 < step && present < below && present + hyst ≤ below
  let up := step < 15 && present < above && present + hyst ≤ above
  if down && (!up || above ≤ below) then step - 1 else if up then step + 1 else step

/-- Continuous adaptation of some lanes (R45). -/
def State.adapt (s : State) (ctl stat lanes : Nat) (o : List (Nat × Nat × Nat)) : State :=
  if s.flag ctl 0 && s.flag Adr.PWR_LOOP 1 && !s.flag ctl 1 then
    iter (List.range 8) (fun k s => match o[k]? with
      | some (p, b, a) =>
        if hasLane lanes k then s.setFld stat (4 * k) 4 (adaptStep (s.fld stat (4 * k) 4) (s.fld ctl 8 8) p b a) else s
      | none => s) s
  else s

/-- The steps kept at the end of EQ for the lanes in training (R45). -/
def State.searchSteps (s : State) (ctl stat sig : Nat) (o : List (List Nat)) : State :=
  s.setSteps stat (((List.range 8).filter (hasLane sig)).map fun k =>
    (k, if s.flag ctl 1 then s.fld ctl 4 4 else bestStep (o.getD k [])))

/-- The slot map that the markers of one position give, where it is valid (R50): the slots by lane, W and PAR. -/
def markMap (n sig wMax : Nat) (parOk : Bool) (ms : List DeskewMark) : Option (List Nat × Nat × Bool) :=
  match ms with
  | [] => none
  | m :: _ =>
    let lanes := (List.range n).filter (hasLane sig)
    let of (k : Nat) := ms.find? (·.lane = k)
    let slots := lanes.filterMap fun k => (of k).map (·.slot)
    let need := List.range m.w ++ (if m.par then [8] else [])
    if lanes.all (fun k => (of k).any fun x => x.w = m.w && x.par == m.par && x.seq = m.seq && x.late ≤ 32) &&
        1 ≤ m.w && m.w ≤ wMax && (parOk || !m.par) && slots.length = need.length && need.all slots.contains then
      some ((List.range n).map fun k => if hasLane sig k then ((of k).map (·.slot)).getD 15 else 15, m.w, m.par)
    else none

/-- The MARKER_SEQ that most lanes carry, the lowest lane's winning a tie. -/
def commonSeq (ms : List DeskewMark) : Nat :=
  (ms.foldl (fun (b : Nat × Nat) m =>
    let c := (ms.filter (·.seq = m.seq)).length
    if b.2 < c then (m.seq, c) else b) (0, 0)).1

end Sys2Proof.Machine
end

