-- ==== Sys2Proof/Machine/Landing.lean ====
section
/-! DEFINITION. Landing (R41 to R69): training, deskew, parity, framing, acceptance of pictures, the Casket and frame buffers, and
re-forming around a lost lane. Readings of the framing rules are log 15; of the map after a re-forming, log 16. -/

namespace Sys2Proof.Machine

/-! ### Facet record streams and their pictures -/

def State.fs (s : State) (k : Nat) : FStream := tget FStream.fresh s.fct.streams k

def State.setFs (s : State) (k : Nat) (x : FStream) : State :=
  { s with fct := { s.fct with streams := tset FStream.fresh s.fct.streams k x } }

def State.modFs (s : State) (k : Nat) (f : FStream → FStream) : State := s.setFs k (f (s.fs k))

def State.pic? (s : State) (k ord : Nat) : Option FPic := (s.fs k).pics.find? (·.ord = ord)

def State.modPic (s : State) (k ord : Nat) (f : FPic → FPic) : State :=
  s.modFs k fun x => { x with pics := x.pics.map fun p => if p.ord = ord then f p else p }

def FPic.band (p : FPic) (n : Nat) : Band := tget Band.empty p.bands n

def State.setBand (s : State) (k ord n : Nat) (b : Band) : State :=
  s.modPic k ord fun p => { p with bands := tput p.bands n b }

/-- The Landing group that owns a Facet record stream (FCT_S_CTL.SRC). -/
def State.srcOf (s : State) (k : Nat) : Nat := s.fld (Adr.FCT_S_CTL k) 5 2

def ceilDiv (a b : Nat) : Nat := (a + b - 1) / b

/-- Bands of a RAW picture of group g (R73). -/
def State.nBands (s : State) (g : Nat) : Nat := ceilDiv (s.lgHeight g) (16 * s.lgBandRows g)

/-- Photosite rows of band n: first row and count. -/
def State.bandSpan (s : State) (g n : Nat) : Nat × Nat :=
  let h := 16 * s.lgBandRows g
  (n * h, min h (s.lgHeight g - n * h))

/-- Pages of 4 KiB of a Casket slot (R63). -/
def State.slotPages (s : State) (g : Nat) : Nat := ceilDiv (s.lgWidth g * 16 * s.lgBandRows g * 18 / 8) 4096

/-- The places that bands of a stream occupy. -/
def State.places (s : State) (k : Nat) : List Place :=
  (s.fs k).pics.flatMap fun p => p.bands.filterMap fun b => b.2.place

def State.freeSlot (s : State) (k g : Nat) : Option Nat :=
  let used := s.places k
  (List.range (s.fld (Adr.LND_CASKET g) 16 16 / max 1 (s.slotPages g))).find? fun n => !used.contains (.casket n)

def State.freeOverflow (s : State) (k g : Nat) : Option Nat :=
  let used := s.places k
  (List.range (s.fld (Adr.LND_OVF_SIZE g) 0 16)).find? fun n => !used.contains (.overflow n)

/-- Free entries of the overflow region. -/
def State.overflowRoom (s : State) (k g : Nat) : Nat :=
  s.fld (Adr.LND_OVF_SIZE g) 0 16 - ((s.places k).filter fun p => match p with
    | .overflow _ => true
    | .casket _ => false).length

/-- A place for a band of an accepted picture: a free Casket slot, else the overflow region (R64). -/
def State.bandPlace (s : State) (k g : Nat) : Option Place :=
  match s.freeSlot k g with
  | some n => some (.casket n)
  | none => (s.freeOverflow k g).map .overflow

/-- Samples packed 32 to 72 bytes (R53, R63). -/
def packSamples : Nat → List Nat → List Byte
  | 0, _ => []
  | _, [] => []
  | f + 1, l =>
    leBytes 72 (((l.take 32).zipIdx).foldl (fun a x => a + x.1 % 2 ^ 18 * 2 ^ (18 * x.2)) 0) ++ packSamples f (l.drop 32)

/-! ### Damage and the group's end -/

/-- A picture of the group loses samples (R57, R59). -/
def State.damage (s : State) (g : Nat) : State :=
  match (s.lg g).pic with
  | none => s
  | some p =>
    let s := match p.ord with
      | some o => s.modPic (s.lgStream g) o fun x => { x with damaged := true }
      | none => s
    if p.damaged then s
    else
      let s := s.modLg g fun x => { x with pic := some { p with damaged := true } }
      (((s.bump (Adr.LND_CNT_DAMAGED g)).raise (Adr.LND_EVT g) 4).reportHw (20 + g) 4 (target 6 g))

/-! ### Rows of RAW pictures -/

/-- Blocks (block row, block) of a band's rows that hold a lost sample. -/
def lostBlocks (rows : List (List (Option Nat))) : List (Nat × Nat) :=
  (rows.zipIdx.flatMap fun r => (r.1.zipIdx.filterMap fun x =>
    if x.1.isNone then some (r.2 / 16, x.2 / 16) else none).eraseDups).eraseDups

/-- A band whose last row is written, or known lost, is complete and handed to the sequencer (R63). -/
def State.tryBand (s : State) (k ord n : Nat) : State :=
  match s.pic? k ord with
  | none => s
  | some p =>
    let g := s.srcOf k
    let gang := s.gang g
    let span := s.bandSpan g n
    let down (r : Nat) : Bool := !((gang.filter fun h => s.lgPos h = r % s.lgGang g).any fun h => s.lgUp h && !p.gone.contains h)
    let rows := List.range' span.1 span.2
    if (p.band n).st = .filling && rows.all (fun r => (tget? p.part r).isSome || down r) then
      let w := s.lgWidth g
      let data := rows.map fun r => (tget? p.part r).getD (List.replicate w none)
      let miss := lostBlocks data
      let full := data.map fun r => r.map fun x => x.getD 0
      let out := match (p.band n).place with
        | some (.overflow _) => true
        | _ => false
      let b := { p.band n with st := .complete, rows := if out then [] else full, miss := miss }
      let s := s.modPic k ord fun p => { p with
        bands := tput p.bands n b, part := p.part.filter fun r => !(rows.contains r.1),
        damaged := p.damaged || miss ≠ [] }
      let s := match b.place with
        | some (.overflow i) =>
            let base := s.pair (Adr.LND_OVF_BASE_LO g) (Adr.LND_OVF_BASE_HI g)
          s.dramPut g (base + i * s.slotPages g * 4096) (packSamples (span.2 * w / 32 + 1) full.flatten)
        | _ => s
      s.occur (0x04 + g)
    else s

/-- A row of an accepted RAW picture arrives or is lost; the band takes its place at its first row (R64). -/
def State.putRow (s : State) (k ord r : Nat) (l : List (Option Nat)) : State :=
  match s.pic? k ord with
  | none => s
  | some p =>
    let g := s.srcOf k
    let n := r / (16 * s.lgBandRows g)
    let s := if (p.band n).place.isNone then
        s.setBand k ord n { p.band n with place := s.bandPlace k g } else s
    let s := s.modPic k ord fun p => { p with part := tput p.part r l }
    s.tryBand k ord n

/-- Samples of packed bytes (R53). -/
def unpackSamples (n : Nat) (l : List Byte) : List Nat :=
  (List.range n).map fun j => leNat ((l.drop (72 * (j / 32))).take 72) / 2 ^ (18 * (j % 32)) % 2 ^ 18

/-- The rows of a band as an engine reads them: out of the Casket slot, or out of DRAM where it lies in the overflow region (R64). -/
def State.bandRows (s : State) (k n : Nat) (b : Band) : List (List Nat) :=
  match b.place with
  | some (.overflow i) =>
    let g := s.srcOf k
    let span := s.bandSpan g n
    let w := s.lgWidth g
    let a := s.pair (Adr.LND_OVF_BASE_LO g) (Adr.LND_OVF_BASE_HI g) + i * s.slotPages g * 4096
    let l := unpackSamples (span.2 * w) (memRead 0 s.dram a (72 * ceilDiv (span.2 * w) 32))
    (List.range span.2).map fun r => (l.drop (r * w)).take w
  | _ => b.rows

/-- Every unfinished band of every open picture of the stream is tried again, as a group of its gang has gone down. -/
def State.retryBands (s : State) (k : Nat) : State :=
  let g := s.srcOf k
  iter (s.fs k).pics (fun p s =>
    iter ((p.part.map fun r => r.1 / (16 * s.lgBandRows g)).eraseDups) (fun n s => s.tryBand k p.ord n) s) s

/-! ### Rows of DEVELOPED pictures (R54, R65, R66) -/

/-- Samples in a row of the group (R54). -/
def State.rowLen (s : State) (g : Nat) : Nat :=
  if s.lgMode g = 0 then s.lgWidth g
  else if s.fld (Adr.LND_FMT g) 5 2 = 0 then 2 * s.lgWidth g else 3 * s.lgWidth g

/-- Plane and column of sample i of a DEVELOPED row (R54). -/
def devSite (c444 : Bool) (i : Nat) : Nat × Nat :=
  if c444 then (if i % 3 = 0 then 1 else if i % 3 = 1 then 0 else 2, i / 3)
  else if i % 2 = 1 then (0, i / 2) else (if i % 4 = 0 then 1 else 2, i / 4)

def State.ctuRows (s : State) (g : Nat) : Nat := 16 * 2 ^ s.fld (Adr.LND_FB_CTL g) 4 2

/-- Address of frame buffer b of an owning group (R65). -/
def State.fbAddr (s : State) (g b : Nat) : Nat :=
  s.pair (Adr.LND_FB_BASE_LO g) (Adr.LND_FB_BASE_HI g) + b * 3 * s.lgHeight g * s.fld (Adr.LND_FB_PITCH g) 0 24

/-- A row enters the stream buffer of the codec engine that serves the live stream (R66). -/
def State.streamRow (s : State) (r : Nat) (l : List (Option Nat)) : State :=
  s.modCe s.cod.rsv fun x => { x with buf := tput x.buf r l }

/-- A row of a DEVELOPED picture goes to its frame buffer and its engine's stream buffer (R65, R66). -/
def State.putDev (s : State) (g : Nat) (fb : Option Nat) (r : Nat) (l : List (Option Nat)) : State :=
  let o := s.owner_ g
  let pitch := s.fld (Adr.LND_FB_PITCH o) 0 24
  let s := match fb with
    | none => s
    | some b =>
      let base := s.fbAddr o b
      let c444 := s.fld (Adr.LND_FMT o) 5 2 = 1
      iter [0, 1, 2] (fun (p : Nat) s =>
        let a := base + p * s.lgHeight o * pitch + r * pitch
        let own := l.zipIdx.filterMap fun (x : Option Nat × Nat) => let q := devSite c444 x.2
          if q.1 = p then x.1.map fun v => (q.2, v) else none
        match own with
        | [] => s
        | _ =>
          let n := 2 * (if p = 0 ∨ c444 then s.lgWidth o else s.lgWidth o / 2)
          let code := s.dramCode g a n true
          if code = Code.done then { s with dram := own.foldl (fun m (x : Nat × Nat) => memWrite 0 m (a + 2 * x.1) (leBytes 2 x.2)) s.dram }
          else s.dramRefuse g a code) s
  let s := s.streamRow r l
  if (r + 1) % s.ctuRows o = 0 ∨ r + 1 = s.lgHeight o then s.occur (0x07 + o) else s

/-! ### Rows as they arrive -/

/-- One row of the group's picture, with its lost samples as none. -/
def State.commitRow (s : State) (g r : Nat) (l : List (Option Nat)) : State :=
  let s := if l.any (·.isNone) then s.damage g else s
  match (s.lg g).pic with
  | none => s
  | some p =>
    if s.lgMode g = 0 then
      match p.ord with
      | some o => s.putRow (s.lgStream g) o r l
      | none => s
    else s.putDev g p.fb r l

/-- The group's rows from `a` up to and without `b` are lost. -/
def State.loseRows (s : State) (g a b : Nat) : State :=
  iter ((List.range' a (b - a)).filter fun r => r % s.lgGang g = s.lgPos g % s.lgGang g)
    (fun r s => s.commitRow g r (List.replicate (s.rowLen g) none)) s

/-- The 18-bit samples of the received blocks of a row, a lost one as none (R53). -/
def unpackRow (n : Nat) (blks : List (Option (BitVec 64))) : List (Option Nat) :=
  (List.range n).map fun i =>
    let u := i / 32 * 9
    let lo := 18 * (i % 32)
    let b0 := u + lo / 64
    let b1 := u + (lo + 17) / 64
    match blks.getD b0 none, blks.getD b1 none with
    | some x, some y =>
      some (if b0 = b1 then x.toNat / 2 ^ (lo % 64) % 2 ^ 18 else (x.toNat / 2 ^ (lo % 64) + y.toNat * 2 ^ (64 - lo % 64)) % 2 ^ 18)
    | _, _ => none

/-- The row in progress ends: what has not come of it is lost, samples beyond the depth are clipped (R53, R57). -/
def State.endRow (s : State) (g : Nat) : State :=
  let x := s.lg g
  match x.row with
  | none => s
  | some r =>
    let depth := s.fld (Adr.LND_FMT g) 0 5
    let l := unpackRow (s.rowLen g) x.blks
    let clips := (l.filter fun v => v.any fun v => 2 ^ depth ≤ v).length
    let l := l.map fun v => v.map fun v => if 2 ^ depth ≤ v then 2 ^ depth - 1 else v
    let s := s.modLg g fun x => { x with row := none, blks := [] }
    (s.bumpBy (Adr.LND_CNT_CLIP g) clips).commitRow g r l

/-- Bytes of a metadata run (R55); a byte of a lost block is a free value (log 1512). -/
def State.infoBytes (s : State) (n : Nat) (blks : List (Option (BitVec 64))) : List Byte × State :=
  (List.range n).foldl (fun (r : List Byte × State) k =>
    match blks.getD (k / 8) none with
    | some b => (r.1 ++ [BitVec.ofNat 8 (b.toNat / 2 ^ (8 * (k % 8)))], r.2)
    | none => let f := r.2.freshByte; (r.1 ++ [f.1], f.2)) ([], s)

/-- The metadata run in progress ends: its bytes are the picture's metadata (R55, R56). -/
def State.endInfo (s : State) (g : Nat) : State :=
  match (s.lg g).info with
  | none => s
  | some (n, keep, blks) =>
    let s := s.modLg g fun x => { x with info := none }
    if !keep then s
    else
      let lost := blks.length < ceilDiv n 8 || blks.any (·.isNone)
      let s := if lost then s.damage g else s
      let r := s.infoBytes n blks
      match (r.2.lg g).pic.bind (·.ord) with
      | some o => r.2.modPic (r.2.lgStream g) o fun x => { x with info := r.1 }
      | none => r.2

/-- What every control block but DESKEW does to a row or metadata run in progress (R57). -/
def State.cutRow (s : State) (g : Nat) : State :=
  let s := (s.endRow g).endInfo g
  s.modLg g fun x => { x with stray := false }

/-- A group has ended its part of a DEVELOPED picture, which is complete once every group of the gang that is up has (R65). -/
def State.fbEnd (s : State) (g : Nat) : State :=
  let o := s.owner_ g
  match (s.lg o).fbPic with
  | none => s
  | some (no, fb, ended) =>
    let ended := ended ++ [g]
    let s := s.modLg o fun x => { x with fbPic := some (no, fb, ended) }
    if (s.gang g).all fun h => ended.contains h || !s.lgUp h then
      s.modLg o fun x => { x with
        fbLast := fb.map fun b => (b, s.clk.count, x.tcBlk), fbLost := fb.isNone, tcBlk := none }
    else s

/-- The group's picture ends: rows not received are lost (R57). -/
def State.endPicture (s : State) (g : Nat) : State :=
  let s := (s.endRow g).endInfo g
  match (s.lg g).pic with
  | none => s
  | some p =>
    let next := match p.lastRow with
      | some r => r + 1
      | none => 0
    let s := s.loseRows g next (s.lgHeight g)
    let s := s.modLg g fun x => { x with pic := none }
    let s := if s.lgMode g = 1 then s.fbEnd g else s
    s.occur (0x0A + g)

/-- The group stops receiving and takes a state; its rows of the pictures under way are missing (R59). -/
def State.lgStop (s : State) (g : Nat) (f : LGroup → LGroup) : State :=
  let s := (s.endPicture g).modLg g f
  if s.lgMode g = 0 then s.retryBands (s.lgStream g) else s

/-- What a group loses when its domain goes OFF. -/
def State.lgOff (s : State) (g : Nat) : State :=
  { s with hdrs := s.hdrs.filter fun h => h.1 / 8 ≠ g }.lgStop g fun _ => LGroup.fresh

/-- The group goes to FAILED (R59): the RECORD streams that it serves report it, a RAW group's Facet record stream and the RECORD
contexts that a DEVELOPED group feeds. -/
def State.lgDown (s : State) (g : Nat) : State :=
  let s := s.endPicture g
  let s := s.modLg g fun x => { x with st := 7, narrow := false, ask := none, lost := none, next := none }
  let s := (s.raise (Adr.LND_EVT g) 3).reportHw (20 + g) 3 (target 6 g)
  if s.lgMode g = 0 then
    (s.reportStream (20 + g) 0x0106 (target 1 (s.lgStream g)) 0).retryBands (s.lgStream g)
  else
    iter ((s.running 1).filter fun c => s.cClass c = 1 && !s.cDec c && (s.gang g).contains (s.cSrc c))
      (fun c s => s.reportStream (20 + g) 0x0106 (target 2 c) 0) s

/-! ### Training of a Landing group (R44, R45, R50) -/

def State.lgLanesNeeded (s : State) (g : Nat) : Nat := s.fld (Adr.LND_CTL g) 6 3 + 1 + b2n (s.flag (Adr.LND_CTL g) 9)

def State.lndSignal (s : State) (g lanes : Nat) : State :=
  let x := s.lg g
  if s.lgOn g && x.st = 0 && s.lgLanesNeeded g ≤ popcount lanes then
    let s := s.startSteps (Adr.LND_EQ_CTL g) (Adr.LND_EQ_STAT g) 8 lanes x.eqd
    let s := { s with hdrs := s.hdrs.filter fun h => h.1 / 8 ≠ g }
    s.setLg g { x with st := 1, sig := lanes % 256, lock := 0, excl := 0, marks := 0, map := List.replicate 8 15, pic := none,
                       row := none, blks := [], info := none, lost := none, ask := none, next := none, narrow := false, absorbed := false }
  else s

def State.lndCdr (s : State) (g lanes : Nat) : State :=
  let x := s.lg g
  if s.lgOn g && x.st = 1 && lanesIn x.sig lanes then s.setLg g { x with st := 2 } else s

/-- Lanes reach block lock: in BLOCK once every lane has it, later a lane may regain it (R44, R61). -/
def State.lndBlock (s : State) (g lanes : Nat) : State :=
  let x := s.lg g
  let l := lanesAnd x.sig lanes
  if !s.lgOn g || x.st < 2 || x.st = 7 then s
  else if x.st = 2 then (if lanesIn x.sig (lanesOr x.lock l) then s.setLg g { x with st := 3, lock := x.sig, marks := 0 }
    else s.setLg g { x with lock := lanesOr x.lock l })
  else s.setLg g { x with lock := lanesOr x.lock l }

/-- The equaliser search is complete: the group is UP (R44, R45). Of the pictures under way it brings no row (R57). -/
def State.lndEq (s : State) (g : Nat) (o : List (List Nat)) : State :=
  let x := s.lg g
  if s.lgOn g && x.st = 4 && lanesIn x.sig x.lock then
    let s := s.searchSteps (Adr.LND_EQ_CTL g) (Adr.LND_EQ_STAT g) x.sig o
    let s := s.setLg g { x with st := 5, eqd := lanesOr x.eqd x.sig, excl := 0, absorbed := false }
    if s.lgMode g = 0 then
      s.modFs (s.lgStream g) fun f => { f with pics := f.pics.map fun p => { p with gone := g :: p.gone.erase g } }
    else s
  else s

def State.lndTimeout (s : State) (g : Nat) : State :=
  let x := s.lg g
  if s.lgOn g && 1 ≤ x.st && x.st ≤ 4 then (s.setLg g { x with st := 0, lock := 0 }).bump (Adr.LND_CNT_LOCKLOSS g) else s

def State.lndRetrain (s : State) (g : Nat) : State :=
  let x := s.lg g
  if s.lgOn g && x.st = 7 then s.setLg g { x with st := 0, lock := 0 } else s

def State.lndAdapt (s : State) (g : Nat) (o : List (Nat × Nat × Nat)) : State :=
  let x := s.lg g
  if s.lgUp g then s.adapt (Adr.LND_EQ_CTL g) (Adr.LND_EQ_STAT g) (lanesMinus x.sig x.excl) o else s

/-- A lane of a group is lost (R46, R50, R58, R59). The loss of the parity lane itself leaves no data slot to remap: no REMAP_REQ
follows (log 1601). -/
def State.lndLose (s : State) (g lane : Nat) : State :=
  let x := s.lg g
  if !s.lgOn g || 8 ≤ lane then s
  else if x.st = 5 ∨ x.st = 6 then
    if hasLane x.excl lane ∨ x.map.getD lane 15 = 15 then s
    else
      let slot := x.map.getD lane 15
      let s := (s.bump (Adr.LND_CNT_LOCKLOSS g)).raise (Adr.LND_EVT g) 0
      let x := { x with excl := addLane x.excl lane, lock := delLane x.lock lane }
      if x.par && !x.absorbed && x.st = 5 then
        (s.setLg g { x with st := 6, lost := if slot < 8 then some slot else none }).raise (Adr.LND_EVT g) 1
      else s.setLg g { x with narrow := true }
  else if hasLane x.lock lane then
    (s.setLg g { x with lock := delLane x.lock lane }).bump (Adr.LND_CNT_LOCKLOSS g)
  else s

/-- The slot a lane's marker names agrees with the map, or with the one that is about to take effect (R51). -/
def LGroup.slotOk (x : LGroup) (lane slot : Nat) : Bool :=
  x.map.getD lane 15 = slot || x.next.any (fun n => n.1.getD lane 15 = slot)

/-- DESKEW on a Landing group (R44, R50, R51). -/
def State.lndDeskew (s : State) (g : Nat) (ms : List DeskewMark) : State :=
  if !s.lgOn g then s
  else
    let x := s.lg g
    let late (k : Nat) := ((ms.find? (·.lane = k)).map fun m => min 63 m.late).getD 0
    let skew (a b : Nat) (s : State) := (List.range 4).foldl (fun s k => s.setFld a (8 * k) 6 (late (b + k))) s
    let s := if 3 ≤ x.st ∧ x.st ≤ 6 then skew (Adr.LND_SKEW_HI g) 4 (skew (Adr.LND_SKEW_LO g) 0 s) else s
    if x.st = 3 then
      match markMap 8 x.sig (s.fld (Adr.LND_CTL g) 6 3 + 1) (s.flag (Adr.LND_CTL g) 9) ms with
      | none => s.setLg g { x with marks := 0 }
      | some (m, w, p) =>
        if x.marks = 1 ∧ x.map = m ∧ x.markW = w ∧ x.markPar = p then
          let y := { x with marks := 0, map := m, w := w, par := p, st := 4, eqAt := s.clk.now }
          if s.flag (Adr.LND_EQ_CTL g) 1 then (s.setLg g y).lndEq g [] else s.setLg g y
        else s.setLg g { x with marks := 1, map := m, markW := w, markPar := p }
    else if x.st = 5 ∨ x.st = 6 then
      let seq := commonSeq ms
      let bad := (List.range 8).filter fun k =>
        x.map.getD k 15 ≠ 15 && !hasLane x.excl k &&
        !(ms.any fun m => m.lane = k && m.late ≤ 32 && m.seq = seq && x.slotOk k m.slot)
      iter bad (fun k s => s.lndLose g k) s
    else s

/-! ### Data positions (R47 to R53) -/

/-- A lane block as the sender sent it, under the lane's polarity (R69 LND_POL). -/
def LaneBlock_flip (inv : Bool) (b : LaneBlock) : LaneBlock := if inv then ⟨~~~b.hdr, ~~~b.pay, ~~~b.prev⟩ else b

/-- The unscrambled payload of a block (R48). -/
def descramble (b : LaneBlock) : BitVec 64 :=
  let v := b.prev.toNat + b.pay.toNat * 2 ^ 58
  BitVec.ofNat 64 (v / 2 ^ 58) ^^^ BitVec.ofNat 64 (v / 2 ^ 19) ^^^ BitVec.ofNat 64 v

/-- The payload of a slot at a position, or none where its block is invalid or lost. -/
def State.slotData (s : State) (g slot : Nat) (blks : List LaneBlock) : Option (BitVec 64) :=
  let x := s.lg g
  match (List.range 8).find? fun k => x.map.getD k 15 = slot with
  | none => none
  | some k =>
    if hasLane x.excl k then none
    else match blks[k]? with
      | none => none
      | some b =>
        let b := LaneBlock_flip (s.flag (Adr.LND_POL g) k) b
        if b.hdr = 1#2 then some (descramble b) else none

/-- Invalid sync headers among the last 64 blocks of a lane. -/
def invalidHdrs (w : BitVec 64) : Nat := (List.range 64).foldl (fun n k => n + b2n (w.getLsbD k)) 0

/-- The sync headers of a position enter the counts of R46: a lane in use with 16 invalid ones in its last 64 blocks loses block
lock (R47). -/
def State.heads (s : State) (g : Nat) (blks : List LaneBlock) : State :=
  iter (List.range 8) (fun k s =>
    let x := s.lg g
    match blks[k]? with
    | none => s
    | some b =>
      if x.map.getD k 15 = 15 ∨ hasLane x.excl k then s
      else
        let bad := b.hdr = 0#2 ∨ b.hdr = 3#2
        let w := ((tget 0#64 s.hdrs (8 * g + k)) <<< 1) ||| (if bad then 1#64 else 0#64)
        if 16 ≤ invalidHdrs w then { s with hdrs := tset 0#64 s.hdrs (8 * g + k) 0#64 }.lndLose g k
        else { s with hdrs := tset 0#64 s.hdrs (8 * g + k) w }) s

/-- The data of a position after the parity rules of R52. A block rebuilt is a data lane's: where the one block lost is the parity
lane's own, nothing is rebuilt and nothing is counted (log 1508). -/
def State.position (s : State) (g : Nat) (blks : List LaneBlock) : List (Option (BitVec 64)) × State :=
  let x := s.lg g
  let d := (List.range x.w).map fun j => s.slotData g j blks
  if x.par && !x.absorbed then
    let p := s.slotData g 8 blks
    let all := d ++ [p]
    let sum := all.foldl (fun a v => a ^^^ v.getD 0) 0#64
    let bad := (all.filter (·.isNone)).length
    if bad = 0 then
      (d, if sum = 0 then s else (s.bump (Adr.LND_CNT_PARERR g)).raise (Adr.LND_EVT g) 5)
    else if bad = 1 ∧ p.isSome then
      (d.map fun v => some (v.getD sum), s.bump (Adr.LND_CNT_REBUILT g))
    else (d, s)
  else (d, s)

/-- A data position of the group. -/
def State.lndData (s : State) (g : Nat) (blks : List LaneBlock) : State :=
  if !s.lgUp g then s
  else
    let r := (s.heads g blks).position g blks
    let s := r.2
    let x := s.lg g
    let need := ceilDiv (s.rowLen g) 32 * 9
    match x.row, x.info with
    | some _, _ =>
      let all := x.blks ++ r.1
      let s := s.setLg g { x with blks := all.take need }
      if need ≤ all.length then s.endRow g else s
    | none, some (n, keep, blks) =>
      let all := blks ++ r.1
      let s := s.setLg g { x with info := some (n, keep, all.take (ceilDiv n 8)) }
      if ceilDiv n 8 ≤ all.length then s.endInfo g else s
    | none, none =>
      if x.stray then s
      else (s.setLg g { x with stray := true }).bump (Adr.LND_CNT_CTLERR g)

/-! ### Control blocks -/

/-- The CRC-8 of control blocks: x⁸ + x² + x + 1 from 0, the most significant bit of each byte first (R51). -/
def crc8 (l : List Byte) : Nat :=
  l.foldl (fun c b => (List.range 8).foldl (fun c _ => if 128 ≤ c then (2 * c) % 256 ^^^ 7 else 2 * c) (c ^^^ b.toNat)) 0

/-- Bits of a control block's payload. -/
def dbits (d : BitVec 64) (lo n : Nat) : Nat := d.toNat / 2 ^ lo % 2 ^ n

/-- A slot's copy of a control position, where it is a control block whose CRC is correct (R47, R51). -/
def State.ctlCopy (s : State) (g slot : Nat) (blks : List LaneBlock) : Option (BitVec 64) :=
  let x := s.lg g
  match (List.range 8).find? fun k => x.map.getD k 15 = slot with
  | none => none
  | some k =>
    if hasLane x.excl k then none
    else match blks[k]? with
      | none => none
      | some b =>
        let b := LaneBlock_flip (s.flag (Adr.LND_POL g) k) b
        let d := descramble b
        if b.hdr = 2#2 ∧ crc8 (leBytes 7 d.toNat) = dbits d 56 8 then some d else none

/-- The correct copies of a control position from the lowest slot up, the parity lane's last (R51). -/
def State.ctlCopies (s : State) (g : Nat) (blks : List LaneBlock) : List (BitVec 64) :=
  (List.range 9).filterMap fun slot => s.ctlCopy g slot blks

/-- A control position of a group that is up: the copy from the lowest slot rules, and copies that differ count a control error
(R51). A position whose block is not of the command's own kind does nothing. -/
def State.ctlAt (s : State) (g : Nat) (blks : List LaneBlock) (kind : Nat → Bool) (f : BitVec 64 → State → State) : State :=
  if !s.lgUp g then s
  else match s.ctlCopies g blks with
    | [] => s
    | d :: r =>
      if kind (dbits d 0 8) then
        let s := s.heads g blks
        f d (if r.any (· ≠ d) then s.bump (Adr.LND_CNT_CTLERR g) else s)
      else s

/-- The block types of R51. -/
def ctlTypes : List Nat := [0x1E, 0x2D, 0x33, 0x3C, 0x4E, 0x55, 0x66, 0x78]

/-- A control block of a reserved type, or naming another stream (R51). -/
def State.ctlReserved (s : State) (g : Nat) : State := (s.bump (Adr.LND_CNT_CTLERR g)).raise (Adr.LND_EVT g) 10

/-- A framing error (R57). -/
def State.framing (s : State) (g : Nat) : State := s.bump (Adr.LND_CNT_CTLERR g)

/-- A new map takes effect at a PICTURE_START (R58, R59). -/
def State.reform (s : State) (g : Nat) : State :=
  let x := s.lg g
  match x.next with
  | none => s
  | some (m, w, par) =>
    (s.setLg g { x with map := m, w := w, par := par, absorbed := x.absorbed || (x.par && !par), next := none, st := 5 }).raise
      (Adr.LND_EVT g) 2

/-- The picture that the stream accepts (R64, R110 to R113): the values in force at its tick. After a retirement in the interval it is
handed round-robin with carry-in 0 from its first band, as R129 says of the picture in progress (log 1706). -/
def State.newPic (s : State) (k no : Nat) (resync : Bool) : FPic :=
  let f := s.fs k
  let nt := (List.range 16).map fun i => bits (s.inForce (Adr.FCT_S_NT0 k + 4 * (i / 4))) (8 * (i % 4)) 6
  let tcOn := s.flag (Adr.FCT_S_TC_CTL k) 0
  ⟨k, f.accepted, no, (f.ticks + 2 ^ 32 - 1) % 2 ^ 32, s.clk.count, resync || f.resync, f.gap,
    if tcOn then some f.tc else none, [], nt, (s.inForce (Adr.FCT_S_SLOT k)).toNat, s.inForce (Adr.FCT_S_RC k), [], [],
    false, s.fct.pendRet ≠ [], 0, s.fct.pendRet ≠ [], 0, false, 0, 0, [], []⟩

/-- A group of a gang joins a picture that its stream has accepted: its rows are to come (R57). -/
def State.joinPic (s : State) (k g : Nat) (p : FPic) : Option Nat × State :=
  (some p.ord, s.modPic k p.ord fun q => { q with gone := q.gone.erase g })

/-- Accepts or refuses a RAW picture (R31, R64): its ordinal where it is accepted. A picture of a stream that does not run is neither
accepted nor counted as refused (log 1510). -/
def State.acceptRaw (s : State) (g no : Nat) (resync : Bool) : Option Nat × State :=
  let k := s.lgStream g
  let o := s.owner_ g
  let f := s.fs k
  match f.pics.getLast? with
  | some p => if s.lgGang g ≠ 1 ∧ p.no = no then s.joinPic k g p else decide_ s k o f
  | none => decide_ s k o f
where
  decide_ (s : State) (k o : Nat) (f : FStream) : Option Nat × State :=
    if !s.streamRuns 0 k then (none, s)
    else if s.lgGang g ≠ 1 ∧ f.refused = some no then (none, s)
    else if (s.freeSlot k o).isSome ∧ s.nBands o ≤ s.overflowRoom k o then
      let p := s.newPic k no resync
      let p := { p with
        bands := [(0, { Band.empty with place := s.bandPlace k o })], gone := (s.gang g).filter fun h => !s.lgUp h }
      let s := s.setFs k { f with
        accepted := f.accepted + 1, took := true, gap := false, resync := false, refused := none, pics := f.pics ++ [p] }
      (some p.ord, s.occur (0x01 + o))
    else
      let s := s.setFs k { f with refused := some no }
      let s := (s.bump (Adr.LND_CNT_DROP g)).raise (Adr.LND_EVT g) 6
      (none, (s.raise Adr.GLB_EVT 3).reportStream (20 + g) 0x0107 (target 1 k))

/-- The next frame buffer in turn that no reader holds (R65). -/
def State.nextFb (s : State) (o : Nat) : Option Nat :=
  let x := s.lg o
  let n := s.fld (Adr.LND_FB_CTL o) 0 4
  ((List.range n).map fun i => (x.fbNext + i) % n).find? fun b => !(x.fbHeld.any (·.1 = b))

/-- The buffer of a DEVELOPED picture that a group starts (R65): the first group of the gang to start it takes the next one, the
others join. The stream buffer of the engine begins anew. -/
def State.startFb (s : State) (g no : Nat) : Option Nat × State :=
  let o := s.owner_ g
  let new : Option Nat × State :=
    let fb := s.nextFb o
    let s := if fb.isNone then s.raise (Adr.LND_EVT o) 7 else s
    let s := s.modLg o fun x => { x with
      fbPic := some (no, fb, []), tcBlk := none,
      fbNext := match fb with
        | some b => (b + 1) % max 1 (s.fld (Adr.LND_FB_CTL o) 0 4)
        | none => x.fbNext }
    (fb, s.modCe s.cod.rsv fun x => { x with buf := [] })
  match (s.lg o).fbPic with
  | some (no', fb, _) => if s.lgGang g ≠ 1 ∧ no' = no then (fb, s) else new
  | none => new

/-- PICTURE_START (R55, R57, R58, R64, R65). -/
def State.lndPictureStart (s : State) (g stream no : Nat) (resync : Bool) : State :=
  let s := s.cutRow g
  if stream ≠ s.lgStream g then s.ctlReserved g
  else
    let s := (s.endPicture g).reform g
    if s.lgMode g = 0 then
      let r := s.acceptRaw g no resync
      r.2.modLg g fun x => { x with pic := some ⟨no, r.1, none, none, 0, false⟩, tcBlk := none }
    else
      let r := s.startFb g no
      r.2.modLg g fun x => { x with pic := some ⟨no, none, r.1, none, 0, false⟩ }

/-- TIMECODE gives the picture's time address (R56, R111): in a gang that of a DEVELOPED picture is kept with its owner. -/
def State.lndTimecode (s : State) (g : Nat) (tc : Word) : State :=
  let s := s.cutRow g
  match (s.lg g).pic with
  | none => s.framing g
  | some p =>
    let s := s.modLg (if s.lgMode g = 0 then g else s.owner_ g) fun x => { x with tcBlk := some tc }
    match p.ord with
    | none => s
    | some o =>
      let k := s.lgStream g
      if s.flag (Adr.FCT_S_TC_CTL k) 0 && !s.flag (Adr.FCT_S_TC_CTL k) 1 then
        s.modPic k o fun x => { x with tc := some tc }
      else s

/-- METADATA (R55, R56): its data blocks follow as data positions. A block of more than 4,096 bytes is discarded with them, and so is
a block out of its place. -/
def State.lndMetadata (s : State) (g stream len : Nat) : State :=
  let s := s.cutRow g
  if stream ≠ s.lgStream g then s.ctlReserved g
  else
    let run (keep : Bool) (s : State) : State :=
      let s := s.modLg g fun x => { x with info := some (len, keep, []) }
      if len = 0 then s.endInfo g else s
    if 4096 < len then run false (s.ctlReserved g)
    else match (s.lg g).pic with
      | none => run false (s.framing g)
      | some p => if p.lastRow.isSome then run false (s.framing g) else run true s

/-- ROW_START (R55, R57). A ROW of HEIGHT or more, or of another group's share, is discarded and counted like one that goes back
(log 1509). -/
def State.lndRowStart (s : State) (g stream row : Nat) : State :=
  let s := s.cutRow g
  if stream ≠ s.lgStream g then s.ctlReserved g
  else match (s.lg g).pic with
    | none => s.framing g
    | some p =>
      if (p.lastRow.any fun r => row ≤ r) || s.lgHeight g ≤ row || row % s.lgGang g ≠ s.lgPos g % s.lgGang g then
        (s.framing g).modLg g fun x => { x with stray := true }
      else
        let next := match p.lastRow with
          | some r => r + 1
          | none => 0
        let s := s.loseRows g next row
        s.modLg g fun x => { x with
          row := some row, blks := [],
          pic := x.pic.map fun p => { p with lastRow := some row, rows := p.rows + 1 } }

/-- PICTURE_END (R55, R57). -/
def State.lndPictureEnd (s : State) (g stream rows : Nat) : State :=
  let s := s.cutRow g
  if stream ≠ s.lgStream g then s.ctlReserved g
  else match (s.lg g).pic with
    | none => (s.framing g).occur (0x0A + g)
    | some p => (if rows % 65536 = p.rows % 65536 then s else s.framing g).endPicture g

/-! ### Re-forming (R58, R59) -/

/-- The map after the former parity lane takes a lost slot. -/
def remapped (x : LGroup) (slot : Nat) : List Nat :=
  (x.map.zipIdx).map fun m => if m.1 = slot then 15 else if m.1 = 8 then slot else m.1

/-- The map after a width change: the lanes still in lock in the order of their slots, the parity lane last (log 16). -/
def narrowed (x : LGroup) (w : Nat) : List Nat :=
  let live := (List.range 9).filter fun j =>
    (List.range 8).any fun k => x.map.getD k 15 = j && !hasLane x.excl k
  (x.map.zipIdx).map fun m =>
    if hasLane x.excl m.2 ∨ m.1 = 15 then 15
    else match live.findIdx? (· = m.1) with
      | some i => if i < w then i else 15
      | none => 15

/-- Lanes still in use and in lock. -/
def LGroup.alive (x : LGroup) : Nat :=
  ((List.range 8).filter fun k => x.map.getD k 15 ≠ 15 && !hasLane x.excl k).length

/-- A request is refused, or was not answered in time. -/
def State.askRefused (s : State) (g : Nat) : State :=
  match (s.lg g).ask with
  | none => s
  | some (width, _, _) =>
    let s := (s.modLg g fun x => { x with ask := none }).raise (Adr.LND_EVT g) 8
    if width then s.lgDown g else s

/-- REMAP_ACK (R58, R59): the answer whose SEQ is that of the request. -/
def State.lndAck (s : State) (g seq : Nat) (accepted : Bool) : State :=
  let s := s.cutRow g
  let x := s.lg g
  match x.ask with
  | none => s
  | some (width, arg, q) =>
    if q ≠ seq % 256 then s
    else if !accepted then s.askRefused g
    else if width then s.setLg g { x with ask := none, next := some (narrowed x arg, arg, false) }
    else s.setLg g { x with ask := none, next := some (remapped x arg, x.w, false) }

/-- What a group does at a tick about a lost lane (R58, R59). A request that the Crossing group cannot take is lost on its way and
gets no answer (log 1603). -/
def State.lndTick (s : State) (g : Nat) : State :=
  let x := s.lg g
  if !s.lgUp g || x.ask.isSome then s
  else if x.narrow then
    if s.flag (Adr.LND_CTL g) 14 && s.flag (Adr.LND_BC_CTL g) 0 && 0 < x.alive then
      (s.bcMsg g 2 x.alive).2.modLg g fun y => { y with narrow := false, ask := some (true, x.alive, x.seq % 256) }
    else s.lgDown g
  else match x.lost with
    | none => s
    | some slot =>
      let s := s.modLg g fun y => { y with lost := none }
      if s.flag (Adr.LND_CTL g) 15 && s.flag (Adr.LND_BC_CTL g) 0 then
        (s.bcMsg g 1 slot).2.modLg g fun y => { y with ask := some (false, slot, x.seq % 256) }
      else s

/-- Bits of a rate in 10⁻⁵ per ns (R41). -/
def lgBits (rate : Nat) : Nat := [800000, 1250000, 1600000, 2578125, 2812500, 3200000].getD rate 0

/-- LND_EQ_STAT (R45): during the search in EQ the step under trial, each held for 2¹⁶ bits in rising order (log 1602). -/
def State.lndEqStat (s : State) (g : Nat) : Nat :=
  let x := s.lg g
  let v := (s.reg (Adr.LND_EQ_STAT g)).toNat
  if x.st = 4 && !s.flag (Adr.LND_EQ_CTL g) 1 then
    let k := min 15 ((s.clk.now - x.eqAt) * lgBits (s.fld (Adr.LND_CTL g) 3 3) / 100000 / 65536)
    (List.range 8).foldl (fun v l => if hasLane x.sig l then v - v / 16 ^ l % 16 * 16 ^ l + k * 16 ^ l else v) v
  else v

/-- LND_STAT of a group (R69). -/
def State.lndStat (s : State) (g : Nat) : Nat :=
  let x := s.lg g
  x.st + 256 * x.lock + 65536 * x.excl + 2 ^ 24 * b2n x.absorbed +
    (if x.st = 5 ∨ x.st = 6 then 2 ^ 25 * ((x.w - 1) % 8) else 0)

def State.lndMap (s : State) (g : Nat) : Nat :=
  ((s.lg g).map.zipIdx).foldl (fun a m => a + m.1 * 16 ^ m.2) 0

end Sys2Proof.Machine
end

