-- ==== Sys2Proof/Machine/FacetEngine.lean ====
section
/-! DEFINITION. The Facet engines (R104 to R135): handing out bands, the row decisions of FIXED pictures, bands final and moved,
closing a picture, retirement and takeover. A decision is taken with three rows run ahead, as far as the segment goes
(log 17): restarts are counted, not timed. -/

namespace Sys2Proof.Machine

/-! ### Engines and slots -/

def State.eng (s : State) (e : Nat) : FEngine := tget FEngine.fresh s.fct.engines e

def State.setEng (s : State) (e : Nat) (x : FEngine) : State :=
  { s with fct := { s.fct with engines := tset FEngine.fresh s.fct.engines e x } }

def State.modEng (s : State) (e : Nat) (f : FEngine → FEngine) : State := s.setEng e (f (s.eng e))

def State.isRetired (s : State) (e : Nat) : Bool := (s.eng e).st = 5

/-- The active count A (R105). -/
def State.active (s : State) : Nat := s.fct.slots.length

/-- Slots whose engine is not retired, rising. -/
def State.liveSlots (s : State) : List Nat :=
  (List.range s.active).filter fun i => !(s.isRetired (s.fct.slots.getD i 7))

/-- The spare in force: the engine in state SPARE of the lowest index (R131). -/
def State.spare (s : State) : Option Nat := (List.range s.nFct).find? fun e => (s.eng e).st = 4

/-- The first of a list of slots after slot i in cyclic order over n slots. -/
def nextSlot (n i : Nat) (l : List Nat) : Option Nat :=
  ((List.range n).map fun j => (i + 1 + j) % n).find? l.contains

/-! ### The layout of a picture (R73 to R80) -/

structure Lay where
  w : Nat
  h : Nat
  br : Nat
  deriving DecidableEq, Repr

def State.lay (s : State) (k : Nat) : Lay :=
  let g := s.srcOf k
  ⟨s.lgWidth g, s.lgHeight g, s.lgBandRows g⟩

/-- Coding blocks per block row, block rows, bands, segments per band, segments. -/
def Lay.bpr (l : Lay) : Nat := l.w / 16
def Lay.rows (l : Lay) : Nat := l.h / 16
def Lay.nb (l : Lay) : Nat := ceilDiv l.h (16 * l.br)
def Lay.ns (l : Lay) : Nat := ceilDiv l.w 256
def Lay.segs (l : Lay) : Nat := l.nb * l.ns

/-- Blocks in a segment row of segment m. -/
def Lay.nbOf (l : Lay) (m : Nat) : Nat := min 16 (l.bpr - 16 * m)

/-- Block rows of band n. -/
def Lay.rowsOf (l : Lay) (n : Nat) : Nat := min l.br (l.rows - n * l.br)

def padOf (n : Nat) : Nat := (4 - n % 4) % 4

/-- The row at a place in decision order within a band: its segment and row (R106). -/
def Lay.decRow (l : Lay) (n idx : Nat) : Nat × Nat :=
  let r := l.rowsOf n
  let g := idx / (8 * r)
  let rem := idx % (8 * r)
  let lanes := max 1 (min 8 (l.ns - 8 * g))
  (8 * g + rem % lanes, rem / lanes)

/-- Blocks in the rows before a place in decision order, within the band (R118). -/
def Lay.blocksBefore (l : Lay) (n idx : Nat) : Nat :=
  (List.range idx).foldl (fun a i => a + l.nbOf (l.decRow n i).1) 0

/-- FLAT cost of a segment row of b blocks (R102). -/
def flatCost (depth b : Nat) : Nat := ceilDiv (6 + b * (3 + 4 * depth)) 8

/-- The payload budget P of a FIXED picture (R117). -/
def FPic.payload (p : FPic) (l : Lay) : Nat := p.slot - 68 - p.info.length - padOf p.info.length - 4 * l.segs

/-- ⌊P × Bc / Bt⌋ for a number of blocks before (R118). -/
def share (p bt bc : Nat) : Nat := p * bc / max 1 bt

/-- The nominal budget of the rows from place a to place b of band n. -/
def FPic.nominal (p : FPic) (l : Lay) (n a b : Nat) : Nat :=
  let bt := l.bpr * l.rows
  let base := n * l.br * l.bpr
  share (p.payload l) bt (base + l.blocksBefore n b) - share (p.payload l) bt (base + l.blocksBefore n a)

/-! ### Parameters of a stream's pictures -/

def State.fMode (s : State) (k : Nat) : Nat := s.fld (Adr.FCT_S_CTL k) 1 2
def State.fDelta (s : State) (k : Nat) : Nat := s.fld (Adr.FCT_S_CTL k) 16 4

def State.picP (s : State) (p : FPic) : PicP :=
  let k := p.stream
  let mono := s.fld (Adr.FCT_S_CFA k) 0 8 = 255
  ⟨s.fMode k, s.fld (Adr.LND_FMT (s.srcOf k)) 0 5, if mono then 1 else 2, s.fld (Adr.FCT_S_CTL k) 8 8, p.nt, mono⟩

def clipQ (d q : Nat) : Nat := if q < d then d else if 63 - d < q then 63 - d else q

/-- The mean of kept indices, rounded to nearest with halves up. -/
def meanQi (l : List Nat) : Option Nat := if l = [] then none else some ((2 * l.foldl (· + ·) 0 + l.length) / (2 * l.length))

/-- Kept indices recorded of a picture, band after band. -/
def FPic.allQis (p : FPic) : List Nat := p.bands.flatMap fun b => b.2.qis

/-- The band centre of a band (R121). -/
def State.bandCentre (s : State) (p : FPic) (n : Nat) : Nat :=
  let k := p.stream
  let start := s.fld (Adr.FCT_S_CTL k) 20 6
  let q := if s.active ≤ n ∧ !(p.band n).carry0 then (meanQi (p.band (n - s.active)).qis).getD start
    else if p.resync then start
    else match (s.fs k).pics.find? (·.ord + 1 = p.ord) with
      | some o => (meanQi o.allQis).getD start
      | none => (s.fs k).lastQi.getD start
  clipQ (s.fDelta k) q

/-! ### Handing out bands (R105, R129) -/

def State.laneQ (s : State) (e lane : Nat) : Nat := s.fld (Adr.FCT_LQ_BASE e) 0 12 + lane

/-! ### Coding a segment row -/

/-- The 16 photosite rows of a segment row. -/
def Band.segRows (b : Band) (m r : Nat) : List (List Nat) :=
  ((b.rows.drop (16 * r)).take 16).map fun x => (x.drop (256 * m)).take 256

/-- Missing blocks of a segment row, numbered within the segment. -/
def Band.segMiss (b : Band) (m r : Nat) : List Nat :=
  b.miss.filterMap fun x => if x.1 = r ∧ 16 * m ≤ x.2 ∧ x.2 < 16 * m + 16 then some (x.2 - 16 * m) else none

def SegWork.fresh : SegWork := ⟨0, none, 0, 0, false, false⟩

/-- What the coding of a FIXED row needs of its surroundings. -/
structure RowCtx where
  p : PicP
  xfrm : Bool
  bias : Nat
  delta : Nat
  rows : List (List Nat)
  above : Option (List (List Nat))
  miss : List Nat
  nb : Nat
  deriving DecidableEq, Repr

/-- The coding of a row at an index (R122). -/
def RowCtx.strand (c : RowCtx) (qi : Nat) : RowOut := codeRow c.p qi c.xfrm c.bias false c.rows c.above c.miss c.nb

/-- Its FLAT coding (R122, R126). -/
def RowCtx.flat (c : RowCtx) : RowOut := codeRow c.p 63 false 0 true c.rows c.above c.miss c.nb

/-- The surroundings of a row of the band that an engine codes. -/
def State.rowCtx (s : State) (w : FWork) (p : FPic) (m r : Nat) (above : Option (List (List Nat))) : RowCtx :=
  let b := p.band w.n
  ⟨s.picP p, s.flag (Adr.FCT_S_CTL w.stream) 4, bits p.rc 8 8, s.fDelta w.stream, b.segRows m r, above, b.segMiss m r,
    (s.lay w.stream).nbOf m⟩

/-- A row started at a centre, or as FLAT (R121, R122, R126). -/
def RowCtx.start (c : RowCtx) (m r qc : Nat) (forced : Bool) (clasp : Nat) : Undec :=
  ⟨m, r, qc, [qc - c.delta, qc, qc + c.delta].map c.strand, c.flat, forced, clasp⟩

def rowOut0 : RowOut := ⟨[], [], 0, 0, 0⟩

/-- The coding of a row that stands in the lane queue while it is undecided, and whose reconstruction rows below use (R123). -/
def Undec.out (u : Undec) : RowOut := if u.forced then u.flat else u.strands.getD 1 rowOut0

/-- The finest strand whose size is at most the allowance (R120): its place, and its coding. -/
def Undec.finest (u : Undec) (allowance : Int) : Option (Nat × RowOut) :=
  (u.strands.zipIdx.map fun o => (o.2, o.1)).find? fun o => (o.2.bytes.length : Int) ≤ allowance

/-- The allowance of the row at a place in decision order (R120). -/
def FPic.allowance (p : FPic) (l : Lay) (n idx depth : Nat) : Int :=
  let b := p.band n
  let total := l.ns * l.rowsOf n
  let f (i : Nat) : Nat := flatCost depth (l.nbOf (l.decRow n i).1)
  let rest := (List.range' (idx + 1) (total - (idx + 1))).foldl (fun a i => a + f i) 0
  let avail : Int := (b.bb : Int) - b.used - rest
  let slack : Int := (b.bb : Int) - b.used - p.nominal l n idx total
  let target : Int := p.nominal l n idx (idx + 1) + slack / (total - idx : Nat)
  min avail (max target (f idx))

/-! ### The lane queues (R107, R124) -/

/-- The position at which the next byte that a lane writes will stand, those that wait for room counted. -/
def Queue.writeEnd (x : Queue) : Nat :=
  x.backlog.foldl (fun a o => match o with
    | .bytes l _ => a + l.length
    | .eop _ _ _ => (a + 31) / 32 * 32
    | .start _ => a) x.tail

/-- What a producer has still to write, up to a position. -/
def cutOps (c : Nat) : Nat → List QOp → List QOp
  | _, [] => []
  | a, .bytes l p :: t =>
    if a + l.length ≤ c then .bytes l p :: cutOps c (a + l.length) t else if a < c then [.bytes (l.take (c - a)) p] else []
  | a, .eop tag f h :: t => if (a + 31) / 32 * 32 ≤ c then .eop tag f h :: cutOps c ((a + 31) / 32 * 32) t else []
  | a, .start p :: t => .start p :: cutOps c a t

/-- A lane rewinds its queue to a row's Clasp and goes on in the same packet. -/
def State.laneRewind (s : State) (q prod c : Nat) : State :=
  let x := s.queue q
  if c ≤ x.tail then
    let s := s.rewindTo q c
    if s.holdsLock q prod then s else (s.pktStart q [prod]).2
  else (s.modQueue q fun x => { x with backlog := cutOps c x.tail x.backlog }).bump (Adr.QF_Q_CNT_REWIND q)

/-- A row's coding enters its lane queue behind a Clasp: the row as it then stands in the strand buffer. -/
def State.laneWrite (s : State) (e : Nat) (u : Undec) : Undec × State :=
  let q := s.laneQ e (u.m % 8)
  let c := (s.queue q).writeEnd
  ({ u with clasp := c }, (s.enqueue q (5 + e) u.out.bytes false).2)

def State.setUnd (s : State) (e : Nat) (l : List Undec) : State :=
  s.modEng e fun x => { x with work := x.work.map fun w => { w with und := l } }

/-! ### Running ahead (R121, R123) -/

/-- The segment that a lane has in hand: its first one with an undecided row (R106). -/
def FWork.laneSeg (w : FWork) (l : Lay) (lane : Nat) : Option Nat :=
  (List.range l.ns).find? fun m => m % 8 = lane && (tget SegWork.fresh w.segs m).rows < l.rowsOf w.n

/-- The row that a lane would start next, where it has one: its segment, its number, and how many of its rows are undecided. -/
def FWork.nextRow (w : FWork) (l : Lay) (lane : Nat) : Option (Nat × Nat × Nat) :=
  (w.laneSeg l lane).bind fun m =>
    let n := (w.und.filter fun u => u.m = m).length
    let r := (tget SegWork.fresh w.segs m).rows + n
    if r < l.rowsOf w.n then some (m, r, n) else none

/-- A lane starts rows until it holds 4 undecided ones or the segment has no more (R123). Each takes the centre of the row above it
that is undecided, else that row's kept index, else the band centre (R121). -/
def State.runLane (s : State) (e lane : Nat) : Nat → State
  | 0 => s
  | f + 1 =>
    match (s.eng e).work with
    | none => s
    | some w =>
      match s.pic? w.stream w.ord, w.nextRow (s.lay w.stream) lane with
      | some p, some (m, r, n) =>
        if w.stopped || 4 ≤ n then s
        else
          let sw := tget SegWork.fresh w.segs m
          let last := (w.und.filter fun u => u.m = m).getLast?
          let qc := match last with
            | some u => u.qc
            | none => if r = 0 then w.centre else clipQ (s.fDelta w.stream) sw.kept
          let above := match last with
            | some u => some u.out.rows
            | none => sw.above
          let s := if r = 0 then s.startNext (s.laneQ e lane) (5 + e) else s
          let u := s.laneWrite e ((s.rowCtx w p m r above).start m r qc false 0)
          (u.2.setUnd e (w.und ++ [u.1])).runLane e lane f
      | _, _ => s

/-- Every lane of a FIXED band runs ahead as far as it may. -/
def State.runLanes (s : State) (e : Nat) : State := iter (List.range 8) (fun lane s => s.runLane e lane 4) s

/-- A lane holds 4 undecided rows and has a fifth to start: it is stalled (R123). -/
def FWork.stalled (w : FWork) (l : Lay) : Bool := (List.range 8).any fun lane => (w.nextRow l lane).any fun x => 4 ≤ x.2.2

/-! ### Starting bands (R105) -/

/-- An idle engine takes the next band handed to it: the rows of a band in the overflow region come out of DRAM (R64), and the lanes
of a FIXED band begin (R123). -/
def State.startBand (s : State) (e : Nat) : State :=
  let x := s.eng e
  match x.work, x.queue with
  | none, (k, o, n) :: t =>
    if x.st = 5 || !s.domRuns (3 + e) then s
    else match s.pic? k o with
      | none => s.setEng e { x with queue := t }
      | some p =>
        let l := s.lay k
        let b := p.band n
        let a := s.active
        let carry := if n < a ∨ b.carry0 then 0 else (p.band (n - a)).bb - (p.band (n - a)).used
        let total := l.ns * l.rowsOf n
        let b := { b with
          st := .coding, rows := s.bandRows k n b, eng := e, bb := p.nominal l n 0 total + carry, used := 0, qis := [], segs := [],
          nMiss := 0, nFlat := 0 }
        let w : FWork := ⟨k, o, n, 0, List.replicate 8 (bits p.rc 0 8), s.bandCentre p n, [], [],
          (List.range 8).map (fun i => (s.queue (s.laneQ e i)).tail), false⟩
        let s := (s.setBand k o n b).setEng e { x with work := some w, queue := t }
        if s.fMode k = 2 then s.runLanes e else s
  | _, _ => s

/-- Hands a band to a slot's engine. -/
def State.handBand (s : State) (k o n slot : Nat) : State :=
  match s.pic? k o with
  | none => s
  | some _ =>
    let e := s.fct.slots.getD slot 7
    let s := s.modPic k o fun p => { p with
      rr := slot, bands := tput p.bands n { p.band n with st := .handed, eng := e, carry0 := p.carry0 } }
    (s.modEng e fun x => { x with queue := x.queue ++ [(k, o, n)] }).startBand e

/-- The picture that a handle names: GA[1:0] the stream, GA[15:8] the picture's ordinal mod 256 (log 18). -/
def State.picOf (s : State) (ga : Nat) : Option FPic :=
  ((s.fs (ga % 4)).pics.filter fun p => p.ord % 256 = ga / 256 % 256).getLast?

/-- The slot of band n when none is named: band mod A, or round-robin over the remaining slots (R105, R129). -/
def State.autoSlot (s : State) (p : FPic) (n : Nat) : Option Nat :=
  if p.rrOn then nextSlot s.active p.rr s.liveSlots else if s.active = 0 then none else some (n % s.active)

/-- FCT_BAND (R204): code and value. -/
def State.fctBand (s : State) (ga gb imm : Nat) : (Nat × Nat) × State :=
  match s.picOf ga with
  | none => ((Code.outOfRange, 0), s)
  | some p =>
    if (s.lay p.stream).nb ≤ gb then ((Code.outOfRange, 0), s)
    else
      let slot := if imm % 2 = 1 then s.autoSlot p gb else some (imm / 2 % 8)
      match slot with
      | none => ((Code.notNow, 0), s)
      | some i =>
        if s.active ≤ i then ((Code.outOfRange, 0), s)
        else
          let e := s.fct.slots.getD i 7
          if s.isRetired e || (p.band gb).st ≠ .complete then ((Code.notNow, 0), s)
          else if !s.domRuns (3 + e) then ((Code.domainOff, 0), s)
          else ((Code.done, e), s.handBand p.stream p.ord gb i)

/-! ### Row decisions (R120, R124 to R126) -/

/-- The run-ahead rows below a row start again one after another, each on one restart of the lane (R124). Where none is left, the
row is FLAT, and so is every one below it (R126). Their codings enter the lane queue anew. -/
def State.restartRows (s : State) (e : Nat) (w : FWork) (p : FPic) (stale : Bool) :
    List Undec → Nat → List (List Nat) → Nat → Bool → List Undec × Nat × State
  | [], _, _, left, _ => ([], left, s)
  | u :: t, qc, above, left, forced =>
    let c := s.rowCtx w p u.m u.r (some above)
    let forced := forced || (stale && left = 0)
    let x := s.laneWrite e (c.start u.m u.r (if forced then u.qc else qc) forced 0)
    let s := if stale && !forced then x.2.bump (Adr.FCT_CNT_STALE e) else x.2
    let r := s.restartRows e w p stale t qc x.1.out.rows (if stale && !forced then left - 1 else left) forced
    (x.1 :: r.1, r.2.1, r.2.2)

/-- How a row is decided: the coding kept, its index, whether it is FLAT, the rows that then stand below it in the lane's window,
the restarts left, and the state. -/
structure Decided where
  out : RowOut
  qi : Nat
  flat : Bool
  below : List Undec
  left : Nat
  st : State

/-- The decision of a row (R120, R124 to R126): the finest strand that fits is kept, and where it is not the centre the lane queue
goes back to the row's Clasp, the kept bits enter, and the rows that ran ahead start again. Where none fits, the row is coded
again coarser, on a restart, and decided again; or it and the rows that ran ahead are FLAT. -/
def State.decideRow (s : State) (e : Nat) (w : FWork) (p : FPic) (allowance : Int) (below : List Undec) :
    (fuel left : Nat) → Undec → Decided
  | fuel, left, u =>
    let q := s.laneQ e (u.m % 8)
    let keep (s : State) (o : RowOut) : State := ((s.laneRewind q (5 + e) u.clasp).enqueue q (5 + e) o.bytes false).2
    if u.forced then ⟨u.flat, 63, true, below, left, s⟩
    else match u.finest allowance with
      | some (1, o) => ⟨o, u.qc, false, below, left, s⟩
      | some (k, o) =>
        let qi := u.qc + k * s.fDelta w.stream - s.fDelta w.stream
        let r := (keep s o).restartRows e w p true below (clipQ (s.fDelta w.stream) qi) o.rows left false
        ⟨o, qi, false, r.1, r.2.1, r.2.2⟩
      | none =>
        let d := s.fDelta w.stream
        match fuel with
        | f + 1 =>
          if u.qc < 63 - d ∧ 0 < left then
            let c := s.rowCtx w p u.m u.r (tget SegWork.fresh w.segs u.m).above
            let qc := min (63 - d) (u.qc + 3 * d)
            let s := (s.laneRewind q (5 + e) u.clasp).bump (Adr.FCT_CNT_COARSE e)
            let x := s.laneWrite e (c.start u.m u.r qc false 0)
            let r := x.2.restartRows e w p false below qc x.1.out.rows left false
            r.2.2.decideRow e w p allowance r.1 f (left - 1) x.1
          else flat s keep u left
        | 0 => flat s keep u left
where
  flat (s : State) (keep : State → RowOut → State) (u : Undec) (left : Nat) : Decided :=
    let r := (keep s u.flat).restartRows e w p false below u.qc u.flat.rows left true
    ⟨u.flat, 63, true, r.1, left, r.2.2⟩

def State.fctCount (s : State) (e : Nat) (o : RowOut) : State :=
  ((s.bump (Adr.FCT_CNT_ROWS e)).bumpBy (Adr.FCT_CNT_VERB e) o.verbs).bumpBy (Adr.FCT_CNT_XFRM e) o.xfrms

/-- A decided row enters the ledger (R120, R124): its bytes count, its segment ends with its last row, the counts and events follow,
and the lanes run ahead again. -/
def State.commitRow_ (s : State) (e : Nat) (w : FWork) (p : FPic) (u : Undec) (left : Nat) (d : Decided) : State :=
  let s := d.st
  let l := s.lay w.stream
  let lane := u.m % 8
  let b := p.band w.n
  let size := d.out.bytes.length
  let sw := tget SegWork.fresh w.segs u.m
  let s := if sw.rows + 1 = l.rowsOf w.n then (s.eop (s.laneQ e lane) (5 + e) 0 .none none).2 else s
  let sw := { sw with
    rows := sw.rows + 1, above := some d.out.rows, kept := d.qi, len := sw.len + size,
    missing := sw.missing || 0 < d.out.missing, degraded := sw.degraded || d.flat }
  let s := s.modEng e fun x => { x with
    work := some { w with
      idx := w.idx + 1, left := w.left.set lane d.left, segs := tput w.segs u.m sw,
      und := (w.und.filter fun o => o.m % 8 ≠ lane) ++ d.below } }
  let s := s.modPic w.stream w.ord fun p => { p with
    bands := tput p.bands w.n { b with
      used := b.used + size, qis := b.qis ++ [d.qi], nMiss := b.nMiss + d.out.missing, nFlat := b.nFlat + b2n d.flat },
    degradedRows := p.degradedRows + b2n d.flat, missing := p.missing + d.out.missing, fell := p.fell || d.flat }
  let s := (s.fctCount e d.out).bumpBy (Adr.FCT_CNT_FALLBACK e) (b2n d.flat)
  let s := if d.flat && !p.fell then s.raise (Adr.FCT_EVT e) 0 else s
  let s := if 0 < left ∧ d.left = 0 then s.raise (Adr.FCT_EVT e) 1 else s
  s.runLane e lane 4

/-- One row decision on an engine that codes a FIXED band (R120 to R126), `stall` engine cycles of which some lane was stalled. -/
def State.rowDecision (s : State) (e stall : Nat) : State :=
  match (s.eng e).work with
  | none => s
  | some w =>
    match s.pic? w.stream w.ord with
    | none => s
    | some p =>
      let l := s.lay w.stream
      let (m, r) := l.decRow w.n w.idx
      match w.und.filter fun u => u.m % 8 = m % 8 with
      | u :: below =>
        if w.stopped || s.fMode w.stream ≠ 2 || !s.domUp (3 + e) || u.m ≠ m || u.r ≠ r then s
        else
          let s := if w.stalled l then s.bumpBy (Adr.FCT_CNT_STALL e) stall else s
          let left := w.left.getD (m % 8) 0
          s.commitRow_ e w p u left
            (s.decideRow e w p (p.allowance l w.n w.idx (s.picP p).n) below 12 left u)
      | [] => s

/-! ### LOSSLESS and NEAR bands -/

/-- Codes one segment of a LOSSLESS or NEAR band whole: its rows (R114). -/
def codeSegment (p : PicP) (b : Band) (m nb : Nat) : Nat → Nat → Option (List (List Nat)) → List RowOut
  | 0, _, _ => []
  | k + 1, r, above =>
    let o := codeRow p 0 false 0 false (b.segRows m r) above (b.segMiss m r) nb
    o :: codeSegment p b m nb k (r + 1) (some o.rows)

/-- Codes a whole LOSSLESS or NEAR band into the lane queues. -/
def State.codeBand (s : State) (e : Nat) (w : FWork) (p : FPic) : State :=
  let l := s.lay w.stream
  let b := p.band w.n
  let pp := s.picP p
  iter (List.range l.ns) (fun m s =>
    let outs := codeSegment pp b m (l.nbOf m) (l.rowsOf w.n) 0 none
    let bytes := outs.flatMap (·.bytes)
    let q := s.laneQ e (m % 8)
    let s := (((s.startNext q (5 + e)).enqueue q (5 + e) bytes false).2.eop q (5 + e) 0 .none none).2
    let missing := outs.foldl (fun a o => a + o.missing) 0
    let s := iter outs (fun o s => s.fctCount e o) s
    let s := s.modEng e fun x => { x with work := x.work.map fun w => { w with
      segs := tput w.segs m { SegWork.fresh with len := bytes.length, missing := 0 < missing } } }
    s.modPic w.stream w.ord fun p => { p with
      missing := p.missing + missing,
      bands := tput p.bands w.n { p.band w.n with
        used := (p.band w.n).used + bytes.length, nMiss := (p.band w.n).nMiss + missing } }) s

/-- Every lane queue of the engine has taken all that the lanes wrote. -/
def State.lanesDrained (s : State) (e : Nat) : Bool :=
  (List.range 8).all fun i => (s.queue (s.laneQ e i)).backlog = []

/-- The band in progress becomes final: every row is decided and written (R108). -/
def State.bandFinal (s : State) (e : Nat) : State :=
  match (s.eng e).work with
  | none => s
  | some w =>
    match s.pic? w.stream w.ord with
    | none => s
    | some p =>
      let l := s.lay w.stream
      let fixed := s.fMode w.stream = 2
      if w.stopped || !s.domUp (3 + e) || (fixed && w.idx < l.ns * l.rowsOf w.n) then s
      else
        let s := if fixed || w.idx ≠ 0 then s
          else (s.codeBand e w p).modEng e fun x => { x with work := x.work.map fun w => { w with idx := 1 } }
        if !s.lanesDrained e then s
        else
          let segs := (((s.eng e).work.map (·.segs)).getD []).map fun x => (⟨x.2.len, x.2.missing, x.2.degraded⟩ : SegOut)
          let s := s.modPic w.stream w.ord fun p => { p with
            bands := tput p.bands w.n { p.band w.n with st := .final, place := none, rows := [], miss := [], segs := segs } }
          let s := s.modEng e fun x => { x with work := none }
          (s.occur (0x10 + e)).startBand e

/-! ### Moving and closing (R108 to R110, R215) -/

/-- FCT_MOVE: the final band, the next in order, is to be moved. -/
def State.fctMove (s : State) (ga gb : Nat) : (Nat × Nat) × State :=
  match s.picOf ga with
  | none => ((Code.outOfRange, 0), s)
  | some p =>
    if (s.lay p.stream).nb ≤ gb then ((Code.outOfRange, 0), s)
    else if p.nextMove ≠ gb ∨ (p.band gb).st ≠ .final then ((Code.notNow, 0), s)
    else ((Code.done, 0), s.setBand p.stream p.ord gb { p.band gb with st := .moving })

/-- The band that an engine's output stage is to move. -/
def State.movingBand (s : State) (e : Nat) : Option (FPic × Nat) :=
  (s.fct.streams.flatMap fun f => f.2.pics).findSome? fun p =>
    (p.bands.find? fun b => b.2.st = .moving ∧ b.2.eng = e).map fun b => (p, b.1)

/-- Byte offset of a band's first segment in the picture (R108, R109). -/
def FPic.bandOffset (p : FPic) (l : Lay) : Nat := 64 + p.info.length + padOf p.info.length + 4 * l.segs + p.bytes.length

/-- Takes the band's segment packets from the lane queues in index order: their bytes and whether a word was poisoned. -/
def State.takeSegs (s : State) (e : Nat) : List Nat → List Byte → Bool → List Byte × Bool × State
  | [], acc, bad => (acc, bad, s)
  | m :: t, acc, bad =>
    let q := s.laneQ e (m % 8)
    match (s.issue q).readPkt q with
    | (some r, s') => (s'.releaseTo q r.1.stop).takeSegs e t (acc ++ r.2.1) (bad || r.2.2)
    | (none, _) => s.takeSegs e t acc bad

/-- The output stage has moved the band's segments to the record queue as one packet (R108). -/
def State.bandMoved (s : State) (e : Nat) : State :=
  match s.movingBand e with
  | none => s
  | some (p, n) =>
    let rq := s.fld (Adr.FCT_S_RQ p.stream) 0 12
    if !s.lockFree rq (5 + e) then s
    else
      let l := s.lay p.stream
      let (bytes, bad, s) := s.takeSegs e (List.range l.ns) [] false
      let s := (s.sendPkt rq (5 + e) (p.bandOffset l % 2 ^ 32) bytes bad).2
      let s := s.modPic p.stream p.ord fun x => { x with
        nextMove := n + 1, bytes := x.bytes ++ bytes, bands := tput x.bands n { x.band n with st := .moved } }
      s.occur (0x18 + e)

/-- The index entries of a picture (R80). -/
def FPic.index (p : FPic) : List Byte :=
  (p.bands.flatMap fun b => b.2.segs).flatMap fun x => leBytes 4 (x.len % 2 ^ 24 + 2 ^ 24 * b2n x.missing + 2 ^ 25 * b2n x.degraded)

/-- The header, with its own CRC (R75, R110). -/
def State.picHeader (s : State) (p : FPic) (picBytes : Nat) : List Byte :=
  let k := p.stream
  let g := s.srcOf k
  let mode := s.fMode k
  let flags := b2n (0 < p.missing) + 2 * b2n p.resync + 4 * b2n p.tc.isSome + 8 * b2n p.gap
  let h : List Byte := [0x46, 0x41, 0x43, 0x54, 1, BitVec.ofNat 8 mode, BitVec.ofNat 8 (s.fld (Adr.LND_FMT g) 0 5),
      BitVec.ofNat 8 (s.fld (Adr.FCT_S_CFA k) 0 8)] ++ leBytes 2 (s.lgWidth g) ++ leBytes 2 (s.lgHeight g) ++
    [BitVec.ofNat 8 (s.lgBandRows g), BitVec.ofNat 8 (if mode = 1 then s.fld (Adr.FCT_S_CTL k) 8 8 else 0),
      BitVec.ofNat 8 flags, BitVec.ofNat 8 k] ++ leBytes 4 p.number ++ leBytes 6 p.tick ++
    leBytes 2 (sat 65535 p.degradedRows) ++ leBytes 4 ((p.tc.getD 0).toNat) ++ leBytes 4 picBytes ++
    leBytes 2 p.info.length ++ [0, 0] ++ leBytes 4 p.missing ++
    ((List.range 16).map fun i => BitVec.ofNat 8 (if mode = 0 then 0 else p.nt.getD i 0))
  h ++ leBytes 4 (crc32c h)

/-- FCT_CLOSE: header, metadata, pad and index as one packet, then the fill, then the trailer (R109). -/
def State.fctClose (s : State) (ga : Nat) : (Nat × Nat) × State :=
  match s.picOf ga with
  | none => ((Code.outOfRange, 0), s)
  | some p =>
    let k := p.stream
    let l := s.lay k
    if p.nextMove ≠ l.nb then ((Code.notNow, 0), s)
    else
      let fixedParts := p.bandOffset l
      let picBytes := if s.fMode k = 2 then p.slot else (fixedParts + 4 + 3) / 4 * 4
      let fill : List Byte := List.replicate (picBytes - 4 - fixedParts) 0
      let head := s.picHeader p picBytes ++ p.info ++ List.replicate (padOf p.info.length) 0 ++ p.index
      let trailer := leBytes 4 (crc32c (head.drop 64 ++ p.bytes ++ fill))
      let send := s.flag (Adr.FCT_S_CTL k) 3 && fill ≠ []
      let r := s.sendAll (s.fld (Adr.FCT_S_RQ k) 0 12) 0
        ([(0, head)] ++ (if send then [(fixedParts % 2 ^ 32, fill)] else []) ++ [((picBytes - 4) % 2 ^ 32, trailer)])
      if r.1 ≠ Code.done then ((r.1, 0), s)
      else
        let mean := (meanQi p.allQis).getD 0
        let s := r.2.setRegN (Adr.FCT_S_STAT k)
          (sat 65535 p.degradedRows + 2 ^ 16 * (mean % 64) + 2 ^ 22 * b2n (0 < p.missing) + 2 ^ 23 * b2n p.gap)
        let s := (s.setRegN (Adr.FCT_S_PICTURE k) p.number).bump (Adr.FCT_S_CNT_PIC k)
        ((Code.done, 0), s.modFs k fun f => { f with
          lastQi := if s.fMode k = 2 then meanQi p.allQis else f.lastQi, pics := f.pics.filter (·.ord ≠ p.ord) })

/-! ### Abandoning, retirement and takeover (R129 to R131, R216, R454) -/

/-- Rewinds every lane queue of an engine to its band's first rows (R129). -/
def State.undoBand (s : State) (e : Nat) (w : FWork) : State :=
  iter (w.clasps.zipIdx) (fun c s => if c.1 < (s.queue (s.laneQ e c.2)).tail ∨ (s.queue (s.laneQ e c.2)).lock.isSome then
    s.rewindTo (s.laneQ e c.2) c.1 else s) s

/-- The band in progress is given back, to be coded again from the start: what its coding has added to the picture's counts goes
(R110). -/
def State.returnBand (s : State) (w : FWork) : State :=
  s.modPic w.stream w.ord fun p =>
    let b := p.band w.n
    { p with
      missing := p.missing - b.nMiss, degradedRows := p.degradedRows - b.nFlat,
      bands := tput p.bands w.n { b with st := .complete, segs := [], qis := [], bb := 0, used := 0, nMiss := 0, nFlat := 0 } }

/-- FCT_ABORT (R204, R216): the value is the band. -/
def State.fctAbort (s : State) (e : Nat) : (Nat × Nat) × State :=
  match (s.eng e).work with
  | none => ((Code.notNow, 0), s)
  | some w =>
    let s := if w.stopped then s else s.undoBand e w
    let s := (s.returnBand w).modEng e fun x => { x with work := none }
    ((Code.done, w.n), s.startBand e)

/-- The next slot in turn after an engine's slot among the live ones. -/
def State.slotAfter (s : State) (e : Nat) : Option Nat :=
  match s.fct.slots.findIdx? (· = e) with
  | some i => nextSlot s.active i s.liveSlots
  | none => s.liveSlots.head?

/-- The collector abandons the work in progress of an engine: the band goes to another slot with carry-in 0 (R119, R454). -/
def State.abandonBand (s : State) (e : Nat) : State :=
  match (s.eng e).work with
  | none => s
  | some w =>
    if w.stopped then s
    else
      let s := ((s.undoBand e w).returnBand w).modEng e fun x => { x with work := none }
      let s := s.modPic w.stream w.ord fun p => { p with carry0 := true }
      let s := match s.slotAfter e with
        | some i => s.handBand w.stream w.ord w.n i
        | none => s
      s.startBand e

/-- Hands the bands not started of a retired engine on, in band order, round-robin over the remaining slots (R129). -/
def State.handOn (s : State) (e : Nat) : State :=
  if s.liveSlots = [] then s
  else
    let rest := (s.eng e).queue
    let dec := (s.eng e).dec
    let s := s.modEng e fun x => { x with queue := [], dec := [] }
    let s := match s.slotAfter e with
      | some i => s.modEng (s.fct.slots.getD i 7) fun x => { x with dec := x.dec ++ dec }
      | none => s
    let start := (s.fct.slots.findIdx? (· = e)).getD (s.active - 1)
    (rest.foldl (fun (a : Nat × State) b =>
      match nextSlot a.2.active a.1 a.2.liveSlots with
      | some i => (i, a.2.handBand b.1 b.2.1 b.2.2 i)
      | none => a) (start, s)).2

/-- An engine is retired (R129): the slot it leaves, or 7. -/
def State.retireFct (s : State) (e : Nat) : Nat × State :=
  let slot := (s.fct.slots.findIdx? (· = e)).getD 7
  let x := s.eng e
  let s := s.setEng e { x with st := 5 }
  let s := { s with fct := { s.fct with
    pendRet := s.fct.pendRet ++ [e],
    streams := s.fct.streams.map fun (f : Nat × FStream) => (f.1, { f.2 with pics := f.2.pics.map fun (p : FPic) => { p with carry0 := true, rrOn := true } }) } }
  let s := match x.work with
    | some w => if w.stopped then s
      else (s.undoBand e w).modEng e fun x => { x with work := some { w with stopped := true, und := [] } }
    | none => s
  let s := s.handOn e
  let s := (s.raise (Adr.FCT_EVT e) 3).reportHw (28 + e) 3 (target 4 e)
  (slot, s.occur 0xE0)

/-- What happens to the slots at the tick after retirements (R130, R131). Bands that waited for want of a slot are handed on
(R129). -/
def State.takeover (s : State) : State :=
  let auto := s.flag Adr.FCT_GLB_CTL 2
  let pend := (List.range 5).filter s.fct.pendRet.contains
  let s := { s with fct := { s.fct with pendRet := [] } }
  let s := iter pend (fun e s =>
    if !s.fct.slots.contains e then s
    else match s.spare with
      | some n =>
        if auto then
          let q := (s.eng e).queue
          let s := (s.modEng e fun x => { x with queue := [] }).modEng n fun x => { x with st := 1, queue := x.queue ++ q }
          let s := { s with fct := { s.fct with slots := s.fct.slots.map fun i => if i = e then n else i } }
          (s.raise (Adr.FCT_EVT n) 2).startBand n
        else s
      | none => s) s
  let s := { s with fct := { s.fct with slots := s.fct.slots.filter fun e => !s.isRetired e } }
  iter (List.range s.nFct) (fun e s => if s.isRetired e then s.handOn e else s) s

/-- A retired engine that passes its self-test after repair takes state SPARE (R131). -/
def State.fctRepaired (s : State) (e : Nat) : State :=
  ((s.modEng e fun x => { x with st := 4 }).raise (Adr.FCT_EVT e) 4).occur 0xE1

/-! ### Register views (R133, R134) -/

/-- A self-test of an engine runs: the repair attempt of R455, the one at the exit from RET (R128, R423), or the targeted one of R450
while the engine has no work. -/
def State.engTests (s : State) (kind i d : Nat) : Bool :=
  s.flt.units.any (fun u => u.1 = (if kind = 4 then i else 5 + i) && u.2.st = 3) ||
  ((s.domain d).st = .ret && (s.domain d).phase = .exiting) ||
  (s.flt.tests.any (fun t => t.unit = target kind i) &&
    (if kind = 4 then (s.eng i).work.isNone && (s.eng i).dec = [] else (s.ce i).cur.isNone))

/-- FCT_STAT: until boot has completed, its reset value (R133). -/
def State.fctStat (s : State) (e : Nat) : Nat :=
  let x := s.eng e
  let st := if s.engTests 4 e (3 + e) then 6 else if x.st = 5 then 5 else if (s.domain (3 + e)).st ≠ .on then 0
    else if x.dec ≠ [] then 3 else if x.work.isSome then 2 else if x.st = 4 then 4 else 1
  let slot := (s.fct.slots.findIdx? (· = e)).getD 7
  let busy := match x.work with
    | some w => if w.stopped then 0 else 2 ^ min 8 (s.lay w.stream).ns - 1
    | none => 0
  if !s.boot.done then 0x70 else st + 16 * slot + 256 * busy + 65536 * (((x.work.map (·.n)).getD 0) % 65536)

/-- FCT_WINDOW: the rows that lanes hold undecided, the waiting one and up to three run ahead (R123). -/
def State.fctWindow (s : State) (e : Nat) : Nat :=
  match (s.eng e).work with
  | none => 0
  | some w =>
    if w.stopped then 0
    else (List.range 8).foldl (fun a i => a + (w.und.filter fun u => u.m % 8 = i).length * 8 ^ i) 0

/-- FCT_REPLAY_LEFT. -/
def State.fctLeft (s : State) (e : Nat) : Nat :=
  match (s.eng e).work with
  | none => 0
  | some w => (least? w.left).getD 0

/-- FCT_SLOTS. -/
def State.fctSlots (s : State) : Nat :=
  let base := (List.range 5).foldl (fun a i => a + (s.fct.slots.getD i 7) * 8 ^ i) 0
  let ret := (List.range 5).foldl (fun a e => a + b2n (s.isRetired e) * 2 ^ e) 0
  base + 2 ^ 15 * (s.spare.getD 7) + 2 ^ 18 * s.active + 2 ^ 21 * ret

end Sys2Proof.Machine
end

