-- ==== Sys2Proof/Machine/CodecPic.lean ====
section
/-! DEFINITION. A codec context's pictures (R138 to R150, R162, R163): its registers, its source as the engine converts it, its time
codes, what its headers say, the pictures that it may refer to, and the search window. Readings are log 1801 to 1811. -/

namespace Sys2Proof.Machine

/-! ### Access -/

def State.cx (s : State) (c : Nat) : Ctx := tget Ctx.fresh s.cod.ctx c

def State.setCx (s : State) (c : Nat) (x : Ctx) : State :=
  { s with cod := { s.cod with ctx := tset Ctx.fresh s.cod.ctx c x } }

def State.modCx (s : State) (c : Nat) (f : Ctx → Ctx) : State := s.setCx c (f (s.cx c))

def State.cSplit (s : State) (c : Nat) : Bool := s.flag (Adr.COD_C_CTL c) 7
def State.cDiv (s : State) (c : Nat) : Nat := s.fld (Adr.COD_C_CTL c) 9 7
def State.cPhase (s : State) (c : Nat) : Nat := s.fld (Adr.COD_C_CTL c) 16 6
def State.cProfile (s : State) (c : Nat) : Nat := s.fld (Adr.COD_C_CTL c) 4 3
def State.cWidth (s : State) (c : Nat) : Nat := s.fld (Adr.COD_C_GEOM c) 0 16
def State.cHeight (s : State) (c : Nat) : Nat := s.fld (Adr.COD_C_GEOM c) 16 16
def State.cCtu (s : State) (c : Nat) : Nat := 16 * 2 ^ s.fld (Adr.COD_C_FMT c) 9 2
def State.cStruct (s : State) (c : Nat) : Nat := s.fld (Adr.COD_C_GOP c) 0 2
def State.cMini (s : State) (c : Nat) : Nat := s.fld (Adr.COD_C_GOP c) 4 4
def State.cOpen (s : State) (c : Nat) : Bool := s.flag (Adr.COD_C_GOP c) 2
def State.cQueue (s : State) (c : Nat) : Nat := s.fld (Adr.COD_C_IO c) 0 12
def State.cPkg (s : State) (c : Nat) : Bool := s.flag (Adr.COD_C_SEI c) 12
def State.cWhole (s : State) (c : Nat) : Bool := bits (s.inForce (Adr.COD_C_SLICE c)) 24 2 = 1

/-- Chroma format and bit depth that the encoder writes (R138, R167): 1 4:2:0, 2 4:2:2. -/
def State.cChroma (s : State) (c : Nat) : Nat := if 2 ≤ s.cProfile c then 2 else 1
def State.cDepth (s : State) (c : Nat) : Nat := if s.flag (Adr.COD_C_FMT c) 11 then 10 else 8

/-- The configuration has a LIVE stream, for which an engine is reserved (R32). -/
def State.hasLive (s : State) : Bool := (List.range s.nCtx).any fun c => s.cEn c && !s.cDec c && s.cClass c = 0

/-- Engines in service. -/
def State.codInService (s : State) : List Nat := (List.range s.nCod).filter fun e => (s.ce e).st ≠ 5

/-- The engines that code a context: both for a split stream that has not moved, else the one it is assigned to. -/
def State.cEngines (s : State) (c : Nat) : List Nat :=
  if s.cSplit c && !(s.cx c).both then [0, 1] else [(s.cx c).engine]

/-- Contexts on an engine. -/
def State.ctxOn (s : State) (e : Nat) : List Nat :=
  (List.range s.nCtx).filter fun c => s.cEn c && (s.cEngines c).contains e && !(s.cx c).parked

/-- CTU rows of a context's picture. -/
def State.cRows (s : State) (c : Nat) : Nat := ceilDiv (s.cHeight c) (s.cCtu c)

/-- CTU columns of tile e of a split picture, or of the whole picture (uniform spacing, R150). -/
def State.cCols (s : State) (c e : Nat) : Nat :=
  let n := ceilDiv (s.cWidth c) (s.cCtu c)
  if s.cSplit c then (if e = 0 then n / 2 else n - n / 2) else n

/-- Luma columns before tile k, and in it. -/
def State.cSpan (s : State) (c k : Nat) : Nat × Nat :=
  let lo := if s.cSplit c && k = 1 then s.cCols c 0 * s.cCtu c else 0
  (lo, min (s.cCols c k * s.cCtu c) (s.cWidth c - lo))

/-- The entry of a context's pictures in progress that engine e works on: the tiles of a moved split stream one after the other
(R161). -/
def State.cTile (s : State) (c e : Nat) : Nat :=
  if s.cSplit c && (s.cx c).both then
    (match tget? (s.cx c).work 0 with
      | some w => if w.row < s.cRows c then 0 else 1
      | none => 1)
  else e

/-- An event of the engine. -/
def State.codEvt (s : State) (e n : Nat) : State := s.raise (Adr.COD_EVT e) n

/-- Luma rows before CTU row j. -/
def State.cLc (s : State) (c j : Nat) : Nat := min (j * s.cCtu c) (s.cHeight c)

/-! ### The source (R65, R66, R142) -/

/-- The frame buffer a picture is read from: the one being received for a LIVE context, the newest complete one otherwise
(R65). -/
def State.cFb (s : State) (c : Nat) : Option Nat :=
  let g := s.cSrc c
  if s.cClass c = 0 then (s.lg g).pic.bind (·.fb) else (s.lg g).fbLast.map (·.1)

/-- Whether a source picture exists for the context. -/
def State.cHasSource (s : State) (c : Nat) : Bool :=
  let g := s.cSrc c
  if s.cClass c = 0 then (s.lg g).pic.isSome || 0 < (s.cx c).rows else (s.lg g).fbLast.isSome

/-- The source picture that the context would take went to no buffer, so that its own picture is skipped (R65). -/
def State.cNoSource (s : State) (c : Nat) : Bool := s.cClass c ≠ 0 && (s.lg (s.cSrc c)).fbLost

/-- Holds or frees a frame buffer for a context (R65). -/
def State.holdFb (s : State) (c : Nat) (b : Option Nat) : State :=
  match b with
  | none => s
  | some b => s.modLg (s.cSrc c) fun x => { x with fbHeld := x.fbHeld ++ [(b, c)] }

def State.dropFb (s : State) (c : Nat) (b : Option Nat) : State :=
  match b with
  | none => s
  | some b => s.modLg (s.cSrc c) fun x => { x with fbHeld := x.fbHeld.erase (b, c) }

/-- Whether the source of a context is 4:4:4. -/
def State.src444 (s : State) (c : Nat) : Bool := s.fld (Adr.LND_FMT (s.cSrc c)) 5 2 = 1

/-- Row r of component p of a source picture: a LIVE context reads the stream buffer of its engine, another one the frame buffer
(R65, R66, R142). A sample that was lost on the link is none. -/
def State.srcRow (s : State) (c e : Nat) (fb : Option Nat) (p r : Nat) : List (Option Nat) :=
  let g := s.cSrc c
  let w := if p = 0 ∨ s.src444 c then s.lgWidth g else s.lgWidth g / 2
  if s.cClass c = 0 then
    let row := (tget? (s.ce e).buf r).getD []
    let own := row.zipIdx.filter fun (x : Option Nat × Nat) => (devSite (s.src444 c) x.2).1 = p
    (List.range w).map fun i => (own.find? fun x => (devSite (s.src444 c) x.2).2 = i).bind (·.1)
  else match fb with
    | none => List.replicate w none
    | some b =>
      let pitch := s.fld (Adr.LND_FB_PITCH g) 0 24
      let l := memRead 0 s.dram (s.fbAddr g b + p * s.lgHeight g * pitch + r * pitch) (2 * w)
      (List.range w).map fun i => some (leNat ((l.drop (2 * i)).take 2))

/-- Sample i of a row, the edge column repeated. -/
def edge (l : List (Option Nat)) (i : Int) : Option Nat := (l.getD (min i.toNat (l.length - 1)) none)

/-- Chroma of a 4:4:4 row at 4:2:2 (R142). -/
def half (l : List (Option Nat)) : List (Option Nat) :=
  (List.range (l.length / 2)).map fun (i : Nat) => match edge l (2 * i - 1), edge l (2 * i), edge l (2 * i + 1) with
    | some a, some b, some d => some ((a + 2 * b + d + 2) / 4)
    | _, _, _ => none

/-- Two chroma rows of a 4:2:2 picture at 4:2:0 (R142). -/
def joinRows (a b : List (Option Nat)) : List (Option Nat) :=
  (a.zip b).map fun x => match x.1, x.2 with
    | some u, some v => some ((u + v + 1) / 2)
    | _, _ => none

/-- A component of source depth d at coding depth b (R142). -/
def toDepth (d b v : Nat) : Nat := if d ≤ b then v else min ((v + 2 ^ (d - b - 1)) / 2 ^ (d - b)) (2 ^ b - 1)

/-- The source of tile k of CTU row j, as the engine converts it: Y, Cb and Cr at the coding depth (R142). -/
def State.srcPlanes (s : State) (c e k : Nat) (fb : Option Nat) (j : Nat) : List (List (List (Option Nat))) :=
  let rows := List.range' (s.cLc c j) (s.cLc c (j + 1) - s.cLc c j)
  let span := s.cSpan c k
  let deep (l : List (Option Nat)) : List (Option Nat) :=
    l.map fun v => v.map (toDepth (s.fld (Adr.LND_FMT (s.cSrc c)) 0 5) (s.cDepth c))
  let wide (p r : Nat) : List (Option Nat) := if s.src444 c then half (s.srcRow c e fb p r) else s.srcRow c e fb p r
  let chroma (p : Nat) : List (List (Option Nat)) :=
    if s.cChroma c = 2 then rows.map (wide p)
    else (rows.filter (· % 2 = 0)).map fun r => joinRows (wide p r) (wide p (r + 1))
  [rows.map fun r => (deep (s.srcRow c e fb 0 r)).drop span.1 |>.take span.2,
   (chroma 1).map fun l => (deep l).drop (span.1 / 2) |>.take (span.2 / 2),
   (chroma 2).map fun l => (deep l).drop (span.1 / 2) |>.take (span.2 / 2)]

/-! ### Time codes (R111, R163) -/

/-- Frames, seconds, minutes and hours of a time address; above 30 frames a second the field mark counts the odd frame. -/
def tcParts (rate : Nat) (w : Word) : Nat × Nat × Nat × Nat :=
  let f := bits w 0 4 + 10 * bits w 4 2
  (if 30 < rate then 2 * f + bits w 15 1 else f, bits w 8 4 + 10 * bits w 12 3, bits w 16 4 + 10 * bits w 20 3,
    bits w 24 4 + 10 * bits w 28 2)

def tcWord (rate : Nat) (drop : Bool) (f sec mi h : Nat) : Word :=
  let ff := if 30 < rate then f / 2 else f
  let fm := if 30 < rate then f % 2 else 0
  BitVec.ofNat 32 (ff % 10 + 16 * (ff / 10 % 4) + 64 * b2n drop + 256 * (sec % 10) + 4096 * (sec / 10) + 32768 * fm +
    65536 * (mi % 10) + 2 ^ 20 * (mi / 10) + 2 ^ 24 * (h % 10) + 2 ^ 28 * (h / 10))

/-- The generator's next frame (R111): drop-frame counting leaves out the first frames of a minute, each tenth minute
excepted. -/
def tcNext (rate : Nat) (drop : Bool) (w : Word) : Word :=
  let p := tcParts rate w
  let f := p.1 + 1
  let c1 := rate ≤ f
  let sec := if c1 then p.2.1 + 1 else p.2.1
  let c2 := 60 ≤ sec
  let mi := if c2 then p.2.2.1 + 1 else p.2.2.1
  let c3 := 60 ≤ mi
  let h := if c3 then p.2.2.2 + 1 else p.2.2.2
  let f := if c1 then 0 else f
  let sec := if c2 then 0 else sec
  let mi := if c3 then 0 else mi
  let h := if 24 ≤ h then 0 else h
  let f := if drop ∧ c1 ∧ c2 ∧ mi % 10 ≠ 0 then rate / 15 else f
  tcWord rate drop f sec mi h

/-- The time code SEI of a picture with a time address, after a gap or not (R163). -/
def tcSei (rate : Nat) (drop gap : Bool) (w : Word) : TcSei :=
  let p := tcParts rate w
  ⟨if !drop then 0 else if rate = 60 then 5 else 4, gap,
    drop && p.1 = rate / 15 && p.2.1 = 0 && p.2.2.1 % 10 ≠ 0, p.1, p.2.1, p.2.2.1, p.2.2.2⟩

/-! ### Headers (R138, R162, R163) -/

/-- A picture in coding order that is an IDR or CRA picture. -/
def CodPic.irap (p : CodPic) : Bool := p.src.key || p.idr

/-- What the headers of a picture say. -/
def State.picHdr (s : State) (c : Nat) (p : CodPic) : PicHdr :=
  let sei := s.reg (Adr.COD_C_SEI c)
  let mode := bits p.src.rcv.rc 0 3
  { irap := p.irap
    aud := bit sei 11
    units := s.fld Adr.GLB_TICK_RATE 16 16 * s.cDiv c
    scale := s.fld Adr.GLB_TICK_RATE 0 16
    hrd := if bit sei 10 && (mode = 1 || mode = 2) then some (bits p.src.rcv.rate 0 24, bits p.src.rcv.vbv 0 28) else none
    poc := p.src.poc
    tc := p.src.tc.map (tcSei (bits sei 2 6) (bit sei 8) p.src.gap)
    hash := bit sei 9
    chroma := s.cChroma c
    depth := s.cDepth c }

/-- nal_unit_type of a unit, with or without its start code. -/
def nalType (annexB : Bool) (l : List Byte) : Nat :=
  let l := if annexB then (l.dropWhile (· = 0)).drop 1 else l
  (l.headD 0).toNat / 2 % 64

def isParam (t : Nat) : Bool := 32 ≤ t && t ≤ 34

/-- A slice's nal_unit_type suits its picture: of an IRAP picture, or of none (ITU-T H.265's numbers, log 1801). -/
def sliceTypeOk (h : PicHdr) (t : Nat) : Bool := if h.irap then 16 ≤ t && t ≤ 23 else t < 16

/-- The units around a slice are those that R162 and R163 call for: before a picture's first slice the access unit delimiter and
the parameter sets of an IRAP picture and any prefix SEI, after its last one the hash SEI. -/
def unitsOk (annexB : Bool) (h : PicHdr) (first last : Bool) (o : SliceOut) : Bool :=
  let pre := o.pre.map (nalType annexB)
  let sets := if first && h.irap then (if h.aud then [35] else []) ++ [32, 33, 34] else []
  sliceTypeOk h (nalType annexB o.slice) && pre.take sets.length = sets && (pre.drop sets.length).all (· = 39) &&
    (pre.drop sets.length ≠ []) == (first && (h.hrd.isSome || h.tc.isSome)) &&
    o.post.map (nalType annexB) = (if last && h.hash then [40] else [])

/-! ### References (R143, R145, R146) -/

/-- References that a context may search: 1 on an engine that has a LIVE context, else as REFS says (R148). -/
def State.cSearch (s : State) (c : Nat) : Nat :=
  if (s.cEngines c).any fun e => (s.ctxOn e).any fun o => s.cClass o = 0 && !s.cDec o then 1
  else 1 + s.fld (Adr.COD_C_GOP c) 3 1

/-- Past an IRAP picture in output order, what comes before it is no reference. -/
def refsFor (l : List RefPic) (poc : Nat) : List RefPic :=
  match (l.reverse.find? (·.irap)) with
  | some k => if k.poc < poc then l.filter fun r => k.poc ≤ r.poc else l
  | none => l

/-- The nearest reference before or after an order count. -/
def refNear (l : List RefPic) (poc : Nat) (below : Bool) : List Nat :=
  let ok := l.filter fun r => if below then r.poc < poc else poc < r.poc
  (ok.foldl (fun (b : Option Nat) r => match b with
    | none => some r.poc
    | some q => if (if below then q < r.poc else r.poc < q) then some r.poc else b) none).toList

/-- The references of a picture: none of an I picture; of a B picture in a mini-GOP the nearest coded ones before and after it;
otherwise the last coded ones, of a mini-GOP's anchor the last that are no B pictures (R146; which ones under RA is log 1802). -/
def State.cRefs (s : State) (c : Nat) (p : CodPic) : List Nat :=
  let n := s.cSearch c
  let l := refsFor (s.cx c).refs p.src.poc
  if p.type = 0 then []
  else if s.cStruct c = 3 then
    (if p.type = 2 then (refNear l p.src.poc true ++ refNear l p.src.poc false).take n
     else ((l.filter (·.type ≠ 2)).reverse.map (·.poc)).take n)
  else (l.reverse.map (·.poc)).take n

/-- A coded picture joins the references; an IDR picture clears them (R146). -/
def State.keepRef (s : State) (c : Nat) (p : CodPic) (planes : List (List (List Nat))) : State :=
  s.modCx c fun x =>
    let l := (if p.idr then [] else x.refs) ++ [⟨p.src.poc, p.type, p.irap, planes⟩]
    { x with refs := l.drop (l.length - (if s.cStruct c = 3 then s.cMini c + 2 else 2)) }

/-- The planes of a picture whose tiles lie side by side (R150). -/
def sideBySide : List (List (List (List Nat))) → List (List (List Nat))
  | [] => []
  | [p] => p
  | p :: q :: _ => (p.zip q).map fun x => (x.1.zip x.2).map fun r => r.1 ++ r.2

/-! ### The search window (R148, R149) -/

/-- The columns in the cache while CTU column k is coded: k − 4 to k + 4 and the one being loaded. -/
def winAt (k : Nat) : List Int := (List.range 10).map fun (i : Nat) => (k : Int) + i - 4

/-- The columns in the cache at the start of a CTU row: 4 of padding and columns 0 to 4. -/
def winStart : List Int := (List.range 9).map fun (i : Nat) => (i : Int) - 4

/-- A row of an inter picture has been coded: the LIVE half is preloaded for the next row at once; the other half stands at the
row's last column. -/
def State.winRow (s : State) (c e : Nat) (refs : List Nat) (row cols : Nat) : State :=
  if refs = [] then s
  else if s.cClass c = 0 then s.modCe e fun x => { x with winLive := some ⟨c, refs, row + 1, winStart⟩ }
  else s.modCe e fun x => { x with winOther := some ⟨c, refs, row, winAt (cols - 1)⟩ }

/-- The reference samples that a row needs lie in its CTUs' windows, ±256 luma columns and ±128 luma rows, and in pictures that the
context searches (R148). -/
def State.needsOk (s : State) (c k row : Nat) (refs : List Nat) (l : List (Nat × Nat × Int × Int)) : Bool :=
  let n : Int := s.cCtu c
  l.all fun u =>
    let x0 : Int := (s.cSpan c k).1 + u.1 * n
    let y0 : Int := row * n
    refs.contains u.2.1 && u.1 < s.cCols c k && x0 - 256 ≤ u.2.2.1 && u.2.2.1 < x0 + n + 256 && y0 - 128 ≤ u.2.2.2 &&
      u.2.2.2 < y0 + n + 128

end Sys2Proof.Machine
end

