-- ==== Sys2Proof/Machine/Codec.lean ====
section
/-! DEFINITION. The codec engines' encode side (R136 to R167): taking and ordering pictures, rate control, slices and packets,
switching and pre-emption, retirement and moving. The bytes of slices and header units are ITU-T H.265 and come with the
commands, as do the reconstructed samples. -/

namespace Sys2Proof.Machine

/-! ### Taking pictures (R142, R145 to R147) -/

/-- Coding order of a mini-GOP between positions lo and hi below its anchor, with levels (R146). -/
def dyadic : Nat → Nat → Nat → Nat → List (Nat × Nat)
  | 0, _, _, _ => []
  | f + 1, lo, hi, lev =>
    if hi ≤ lo + 1 then []
    else
      let m := (lo + hi) / 2
      (m, lev) :: (dyadic f lo m (lev + 1) ++ dyadic f m hi (lev + 1))

/-- The pictures of a mini-GOP in coding order, its last one the anchor (R146). -/
def gopOrder (l : List Taken) : List CodPic :=
  let n := l.length
  match l.getLast? with
  | none => []
  | some a =>
    ⟨a, 1, 0, false⟩ :: (dyadic n 0 n 1).filterMap fun m => (l[m.1 - 1]?).map fun t => ⟨t, 2, min 3 m.2, false⟩

/-- A mini-GOP is formed once MINI pictures have been taken, those that were skipped included, which leave it shorter (R146). -/
def Ctx.closeGop (x : Ctx) (mini : Nat) : Ctx :=
  let n := x.gop.length + x.gopSkips
  if mini ≤ n then { x with code := x.code ++ gopOrder x.gop, gop := [], gopSkips := n % max 1 mini } else x

/-- A picture leaves the lookahead into the GOP structure (R146, R147). Its order count is the number of ticks since the last IDR
picture (R162). -/
def State.toGop (s : State) (c : Nat) (t : Taken) : State :=
  let x := s.cx c
  let st := s.cStruct c
  let start := x.idrNext || !x.started
  let idr := start || (t.key && !s.cOpen c)
  let base := if idr then t.ticks else x.idrTick
  let t := { t with poc := t.ticks - base, key := t.key || start }
  let x := { x with idrTick := base, started := true, idrNext := false }
  if t.key then
    let k : CodPic := ⟨t, 0, 0, idr⟩
    let lead := st = 3 && !t.asked && !idr
    s.setCx c { x with
      code := if lead then x.code ++ [k] ++ gopOrder x.gop else x.code ++ gopOrder x.gop ++ [k]
      gop := [], gopSkips := if st = 3 then t.after % max 1 (s.cMini c) else 0 }
  else if st < 3 then s.setCx c { x with code := x.code ++ [⟨t, st, 0, false⟩] }
  else s.setCx c (({ x with gop := x.gop ++ [t], gopSkips := x.gopSkips + t.after }).closeGop (s.cMini c))

/-! ### Rate control (R151 to R157) -/

def RcVals.mode (v : RcVals) : Nat := bits v.rc 0 3
def RcVals.maxVbv (v : RcVals) : Nat := bits v.vbv 0 28

/-- The rate control in force. -/
def State.rcNow (s : State) (c : Nat) : RcVals :=
  ⟨s.inForce (Adr.COD_C_RC c), s.inForce (Adr.COD_C_RATE c), s.inForce (Adr.COD_C_VBV c), s.inForce (Adr.COD_C_QP c)⟩

/-- Depth of a lookahead (R157). -/
def RcVals.look (v : RcVals) : Nat := if v.mode = 3 then bits v.rc 12 5 else 0

/-- DQ where two strands run. -/
def RcVals.dq (v : RcVals) : Nat := if v.mode = 2 then bits v.rc 4 3 else 0

/-- A context takes a picture (R147): `force` asks for a key picture. -/
def State.takePic (s : State) (c : Nat) (force : Bool) : State :=
  let x := s.cx c
  let per := s.fld (Adr.COD_C_GOP c) 16 10
  let key := x.keyDue || force || x.taken = 0 || (per ≠ 0 && x.taken % per = 0)
  let fb := s.cFb c
  let g := s.cSrc c
  let tcOn := s.flag (Adr.COD_C_SEI c) 0
  let blk := if s.cClass c = 0 then (s.lg g).tcBlk else (s.lg g).fbLast.bind (·.2.2)
  let tc := if !tcOn then none else if s.flag (Adr.COD_C_SEI c) 1 then some x.tc else some (blk.getD x.tc)
  let t : Taken := ⟨s.clk.count, fb, x.ticks, 0, key, x.keyDue, tc, x.gap, Config.lookCost c s.clk.count, s.rcNow c, 0⟩
  let s := s.holdFb c fb
  let look := x.look ++ [t]
  let n := look.length - (s.rcNow c).look
  let s := s.setCx c { x with taken := x.taken + 1, keyDue := false, gap := false, look := look.drop n }
  iter (look.take n) (fun t s => s.toGop c t) s

/-- The stream stops: what was taken is coded as far as it goes (R146). -/
def State.flushCtx (s : State) (c : Nat) : State :=
  let l := (s.cx c).look
  let s := s.modCx c fun x => { x with look := [] }
  let s := iter l (fun t s => s.toGop c t) s
  s.modCx c fun x => { x with code := x.code ++ gopOrder x.gop, gop := [], gopSkips := 0 }

/-- Puts a picture among others by the tick at which it was taken. -/
def insertTaken (t : Taken) : List Taken → List Taken
  | [] => [t]
  | u :: l => if t.ticks ≤ u.ticks then t :: u :: l else u :: insertTaken t l

/-- The pictures of a context that are taken and not coded are ordered anew, the first of them an IDR picture (R161). -/
def State.reorder (s : State) (c : Nat) : State :=
  let x := s.cx c
  let l := (x.code.map (·.src) ++ x.gop).foldl (fun l t => insertTaken t l) []
  iter l (fun t s => s.toGop c t) (s.setCx c { x with code := [], gop := [], gopSkips := 0, idrNext := true })

/-- The nominal picture size Tn (R152). -/
def State.cNominal (s : State) (c : Nat) (v : RcVals) : Nat :=
  bits v.rate 0 24 * 1000 * s.fld Adr.GLB_TICK_RATE 16 16 * s.cDiv c / max 1 (8 * s.fld Adr.GLB_TICK_RATE 0 16)

def clipI (v lo hi : Int) : Int := if v < lo then lo else if hi < v then hi else v

/-- The budget of a picture, with the pictures that follow it in coding order (R152, R157). -/
def State.cBudget (s : State) (c : Nat) (p : CodPic) (rest : List CodPic) : Nat :=
  let x := s.cx c
  let v := p.src.rcv
  let tn := s.cNominal c v
  let vbv := v.maxVbv
  if v.mode = 3 then
    if v.look = 0 then min tn vbv
    else
      let costs := (p.src.cost :: (rest.map (·.src.cost) ++ x.gop.map (·.cost) ++ x.look.map (·.cost))).take v.look
      let sum := max 1 (costs.foldl (· + ·) 0)
      max (tn / 4) (min (tn * v.look * p.src.cost / sum) (min (4 * tn) vbv))
  else
    let d := clipI x.debt (-((vbv : Int) / 2)) ((vbv : Int) / 2)
    let t := max (tn / 4) ((tn : Int) - d / 4).toNat
    if p.src.key then t * bits v.rc 8 4 else t

/-- COD_C_SLICE.MAXSLICE, 0 for none. -/
def State.cMaxSlice (s : State) (c : Nat) : Nat := bits (s.inForce (Adr.COD_C_SLICE c)) 0 24

/-- The allowance of the next CTU row (R153). Of a slice of the whole picture (R164 mode 1), whose rows share one decision, it is
that of a picture of one row (log 1803). -/
def State.cAllowance (s : State) (c : Nat) (w : CWork) : Nat :=
  let h := max 1 (s.cHeight c)
  let t := w.budget
  let row := if s.cWhole c then 0 else w.row
  let rows := if s.cWhole c then 1 else s.cRows c
  let part (j : Nat) : Nat := if j = rows then t else t * s.cLc c j / h
  let nm := part (row + 1) - part row
  let slack : Int := (t : Int) - w.used - (t - part row : Nat)
  let target : Int := nm + slack / (rows - row : Nat)
  let headroom : Int := (w.pic.src.rcv.maxVbv : Int) - (s.cx c).debt - w.used + part row
  let a := (max 0 (min target headroom)).toNat
  let m := s.cMaxSlice c
  if m ≠ 0 ∧ m < a then m else a

/-- A base QP within the limits (R151, R155). -/
def RcVals.clipQp (v : RcVals) (q : Int) : Nat := (clipI q (bits v.qp 8 6) ((min 51 (bits v.qp 16 6) : Nat) - v.dq : Int)).toNat

/-- The QP of a picture's first row (R151, R155). -/
def State.cBase (s : State) (c : Nat) (p : CodPic) : Nat :=
  let v := p.src.rcv
  let init := bits v.qp 0 6
  if v.mode = 0 then
    v.clipQp ((if p.type = 0 then init else if p.type = 1 then init + bits v.qp 24 4 else init + bits v.qp 28 4 + p.level : Nat) : Int)
  else if p.src.asked then v.clipQp init
  else v.clipQp ((s.cx c).meanQp.getD init)

/-- The floor cost of a row of n CTUs (R154). -/
def floorCost (n : Nat) : Nat := 48 + 8 * n

/-- The bound of R154 on the coded size of CTUs, in bits. -/
def binBound (l : List (Nat × Nat)) : Nat := l.foldl (fun a b => a + 7 * b.1 + b.2) 0

/-- CTUs of a row that a strand with a cap codes in floor mode: from the first one before which the bound, plus 8 bytes for it and
for each CTU after it, would exceed the cap (R154). -/
def cappedCtus (cap : Nat) (bins : List (Nat × Nat)) : Nat :=
  let n := bins.length
  match (List.range n).find? fun i => 8 * cap < binBound (bins.take i) + 64 * (n - i) with
  | some i => n - i
  | none => 0

def strandCapped (cap : Option Nat) (o : SliceOut) : Nat := (cap.map fun k => cappedCtus k o.bins).getD 0

/-- What a strand can give under its cap: a CTU in floor mode costs at most 8 bytes, and the slice is no longer than the cap
(R154). -/
def strandOk (cap : Option Nat) (n : Nat) (o : SliceOut) : Bool :=
  o.bins.length = n && cap.all fun k =>
    o.slice.length ≤ k && (o.bins.drop (n - cappedCtus k o.bins)).all fun b => 7 * b.1 + b.2 ≤ 64

/-- The caps of both strands for a row (R154, R155): of a slice of the whole picture what its earlier rows have left of them, but
the floor cost at least (log 1803). -/
def State.rowCaps (s : State) (c k : Nat) (w : CWork) (allow : Nat) : Option Nat × Option Nat :=
  let m := s.cMaxSlice c
  let floor := floorCost (s.cCols c k)
  let left (cap used : Nat) : Nat := if s.cWhole c then max floor (cap - used) else cap
  let one := max allow (if s.cWhole c then floor * s.cRows c else floor)
  if w.pic.src.rcv.mode = 0 then (none, none)
  else (if m = 0 then none else some (left m w.acc.length), some (left (if m = 0 then one else min m one) w.acc2.length))

/-- The next base QP and whether the coarser strand is kept (R155); within one slice the QP stays (R151). -/
def State.rowNext (s : State) (c : Nat) (w : CWork) (allow finer coarser : Nat) : Nat × Bool :=
  let q : Int := w.base
  let v := w.pic.src.rcv
  if v.mode = 2 then
    let dq : Int := v.dq
    if finer ≤ allow then (v.clipQp (if 2 * finer < allow then q - 1 else q), false)
    else (v.clipQp (if coarser ≤ allow then q + 1 else q + dq), true)
  else if v.mode = 0 ∨ s.cWhole c then (w.base, false)
  else
    let n := 100 * finer
    (v.clipQp (if 150 * allow < n then q + 2 else if 115 * allow < n then q + 1 else if n < 60 * allow then q - 2
      else if n < 87 * allow then q - 1 else q), false)

/-! ### Starting and switching (R32, R144, R150, R159, R160) -/

/-- The budget of an engine's share of a picture (R150). -/
def State.tileBudget (s : State) (c e t : Nat) : Nat :=
  if s.cSplit c then
    let n := s.cCols c 0 + s.cCols c 1
    let a := t * s.cCols c 0 / max 1 n
    if e = 0 then a else t - a
  else t

/-- The state of a LIVE context is loaded into its engine's second bank (R160). -/
def State.loadBank (s : State) (c : Nat) : State :=
  if s.cDec c || s.cClass c ≠ 0 then s
  else s.modCe (s.cx c).engine fun x => { x with bank := if x.bank.contains c then x.bank else x.bank ++ [c] }

/-- Starts the context's next picture in coding order on its engines. A key picture in answer to a request starts with a debt of 0
(R152). -/
def State.startPic (s : State) (c e : Nat) : State :=
  let x := s.cx c
  match x.code with
  | [] => s
  | p :: rest =>
    let x := { x with debt := if p.src.rcv.mode ≠ 0 ∧ p.src.asked then 0 else x.debt }
    let s := (s.setCx c x).loadBank c
    let t := s.cBudget c p rest
    let refs := s.cRefs c p
    let tail := (s.queue (s.cQueue c)).tail
    let w (k : Nat) : CWork :=
      ⟨p, s.tileBudget c k t, 0, 0, [], s.cBase c p, 0, tail, 0, [], [], [], 0, [], [], [], refs, s.picHdr c p⟩
    let s := s.setCx c { x with code := rest, work := (if s.cSplit c then [0, 1] else s.cEngines c).map fun k => (k, w k) }
    let win : Window64 := ⟨c, refs, 0, winStart⟩
    let s := if refs = [] then s
      else iter (s.cEngines c) (fun e s => s.modCe e fun y =>
        if s.cClass c = 0 then { y with winLive := some win } else { y with winOther := some win }) s
    if p.irap then s.codEvt e 1 else s

/-- No decode context runs on an engine while a LIVE context is in its second bank (R159). -/
def State.barred (s : State) (c : Nat) : Bool := s.cDec c && (s.cEngines c).any fun e => (s.ce e).bank ≠ []

/-- The context to serve at a picture boundary: lowest class, round-robin by number after the one served last (R144). -/
def State.codChoose (s : State) (e : Nat) : Option Nat :=
  let x := s.ce e
  let ready := x.ready.filter fun c => !s.barred c
  match least? (ready.map s.cClass) with
  | none => none
  | some k =>
    let l := ready.filter fun c => s.cClass c = k
    match least? (l.filter (x.served.getD k 63 < ·)) with
    | some c => some c
    | none => least? l

/-- An engine turns to a context whose picture is ready. -/
def State.codServe (s : State) (e c : Nat) : State :=
  let x := s.ce e
  let s := s.setCe e { x with cur := some c, ready := x.ready.erase c, served := x.served.set (s.cClass c) c, last := some c }
  let s := if x.last = some c then s else s.bump (Adr.COD_CNT_SWITCH e)
  if s.cDec c then s else if (s.cx c).work = [] then s.startPic c e else s

/-- An idle engine goes on: with a LIVE context that is ready, else with the picture set aside, else with the next ready one (R32,
R144). -/
def State.codNext (s : State) (e : Nat) : State :=
  let x := s.ce e
  if x.st = 5 ∨ x.cur.isSome ∨ !s.domRuns (8 + e) then s
  else match x.aside, s.codChoose e with
    | none, none => s
    | none, some c => s.codServe e c
    | some o, some c => if s.cClass c = 0 || s.barred o then s.codServe e c else s.setCe e { x with cur := some o, aside := none }
    | some o, none => if s.barred o then s else s.setCe e { x with cur := some o, aside := none }

/-- A picture of the context is ready on its engines (R144). -/
def State.codReady (s : State) (c : Nat) : State :=
  iter (s.cEngines c) (fun e s =>
    let s := s.modCe e fun x =>
      if x.ready.contains c ∨ x.cur = some c ∨ x.aside = some c then x else { x with ready := x.ready ++ [c] }
    s.codNext e) s

/-- A LIVE context has a picture whose next CTU row is ready (R32, R144). -/
def State.liveReady (s : State) (c : Nat) : Bool :=
  let x := s.cx c
  match tget? x.work x.engine with
  | some w => w.row < x.rows
  | none => x.code ≠ [] && 0 < x.rows

/-- The reserved engine turns to a LIVE row that is ready, setting a non-LIVE picture aside (R32). -/
def State.liveRun (s : State) (c : Nat) : State :=
  let e := (s.cx c).engine
  let x := s.ce e
  if !s.liveReady c || x.st = 5 then s
  else match x.cur with
    | some o =>
      if s.cClass o = 0 then (if o = c || x.ready.contains c then s else s.setCe e { x with ready := x.ready ++ [c] })
      else
        let s := (s.setCe e { x with cur := some c, aside := some o, ready := x.ready.erase c }).bump (Adr.COD_CNT_PREEMPT e)
        if (s.cx c).work = [] then s.startPic c e else s
    | none => s.codReady c

/-- The context's next picture, where there is one, waits for its engines: a LIVE one until its first CTU row is ready (R144). -/
def State.codWait (s : State) (c : Nat) : State :=
  if s.cDec c then s.codReady c
  else if (s.cx c).code = [] || (s.cx c).work ≠ [] then s
  else if s.cClass c = 0 then s.liveRun c else s.codReady c

/-- A LIVE context that has stopped frees the second bank at the end of its last picture, and what waited for that goes on
(R160). -/
def State.freeBank (s : State) (c : Nat) : State :=
  let x := s.cx c
  if s.cDec c || s.cClass c ≠ 0 || s.streamRuns 1 c || x.work ≠ [] || x.code ≠ [] then s
  else
    let e := x.engine
    (s.modCe e fun y => { y with bank := y.bank.erase c }).codNext e

/-- A move of the placement loop takes effect at a picture boundary of the context (R436). -/
def State.codGo (s : State) (c : Nat) : State :=
  let x := s.cx c
  match x.goTo with
  | none => s
  | some b =>
    if x.work ≠ [] || (List.range s.nCod).any fun e => (s.ce e).cur = some c || (s.ce e).aside = some c then s
    else
      let was := (s.ce x.engine).ready.contains c
      let s := s.modCe x.engine fun y => { y with ready := y.ready.erase c }
      let s := s.setCx c { x with engine := b, goTo := none }
      if was then s.codReady c else s

/-- Why a context's unit command is refused. -/
def State.cRefuse (s : State) (c : Nat) : Option Nat :=
  if !s.cEn c then some Code.badTarget
  else if (s.cx c).parked || (s.cEngines c).any fun e => (s.ce e).st = 5 then some Code.notNow
  else if (s.cEngines c).any fun e => !s.domRuns (8 + e) then some Code.domainOff
  else if s.barred c then some Code.notNow
  else none

/-- A picture of an encode context is skipped (R145): it is not coded, and a mini-GOP is the shorter for it (R146). -/
def State.skipPic (s : State) (c : Nat) : State :=
  let s := (s.bump (Adr.COD_CNT_SKIP (s.cx c).engine)).modCx c fun x => { x with gap := true }
  let s := (s.setFld (Adr.COD_C_STAT c) 6 2 3).occur (0x20 + c)
  if s.cStruct c ≠ 3 || (s.cx c).taken = 0 then s
  else
    let s := s.modCx c fun x => match x.look.getLast? with
      | some t => { x with look := x.look.dropLast ++ [{ t with after := t.after + 1 }] }
      | none => ({ x with gopSkips := x.gopSkips + 1 }).closeGop (s.cMini c)
    s.codWait c

/-- COD_PIC for an encode context. -/
def State.codPicEnc (s : State) (c imm : Nat) : Nat × State :=
  match s.cRefuse c with
  | some k => (k, s)
  | none =>
    if imm / 2 % 2 = 1 || s.cNoSource c then (Code.done, s.skipPic c)
    else if !s.cHasSource c then (Code.notNow, s)
    else (Code.done, (s.takePic c (imm % 2 = 1)).codWait c)

/-- COD_ROW: a LIVE CTU row is ready; the reserved engine sets a non-LIVE picture aside (R32). Once every row of the picture in
progress is ready, a row is of the next picture. -/
def State.codRow (s : State) (c row : Nat) : Nat × State :=
  match s.cRefuse c with
  | some k => (k, s)
  | none =>
    if s.cClass c ≠ 0 ∨ s.cDec c then (Code.badTarget, s)
    else if s.cRows c ≤ row then (Code.outOfRange, s)
    else
      (Code.done, (s.modCx c fun x =>
        if x.work ≠ [] ∧ s.cRows c ≤ x.rows then { x with rowsNext := max x.rowsNext (row + 1) }
        else { x with rows := max x.rows (row + 1) }).liveRun c)

/-! ### Slices and packets (R156, R164, R165) -/

/-- The unit header of R165 before NAL data. -/
def unitHeader (c : Nat) (p : CodPic) (picNum slice : Nat) (first last param : Bool) (data : List Byte) : List Byte :=
  leBytes 3 data.length ++
    [BitVec.ofNat 8 (b2n first + 2 * b2n last + 4 * b2n p.irap + 8 * b2n param), BitVec.ofNat 8 c, 0] ++
    leBytes 2 slice ++ leBytes 6 p.src.tick ++ leBytes 2 (picNum % 65536) ++ data

/-- The packets of slice n of a picture with the units around it; whether it is the access unit's first or last (R164). -/
def State.slicePkts (s : State) (c : Nat) (p : CodPic) (n : Nat) (first last : Bool) (o : SliceOut) : List (Nat × List Byte) :=
  let num := (s.cx c).picNum
  if s.cPkg c then
    let units := (o.pre.map fun u => (65535, u)) ++ [(n, o.slice)] ++ o.post.map fun u => (65535, u)
    units.zipIdx.map fun u => (0, unitHeader c p num u.1.1 (first && u.2 = 0) (last && u.2 + 1 = units.length)
      (u.1.1 = 65535 && isParam (nalType false u.1.2)) u.1.2)
  else
    [(0, unitHeader c p num n first last (o.pre.any fun u => isParam (nalType true u))
      (o.pre.flatten ++ o.slice ++ o.post.flatten))]

/-- Enqueues a slice's packets: under CBR2 the finer strand's first, taken back where the coarser is kept (R156). -/
def State.putSlice (s : State) (c e : Nat) (finer : Option (List (Nat × List Byte))) (kept : List (Nat × List Byte)) : State :=
  let q := s.cQueue c
  let s := match finer with
    | none => s
    | some f =>
      let clasp := (s.queue q).tail
      if s.lockFree q (10 + e) then
        let s := (s.pktStart q [10 + e]).2
        let s := (s.enqueue q (10 + e) (f.flatMap fun (x : Nat × List Byte) => x.2) false).2
        s.rewindTo q clasp
      else s
  (s.sendAll q (10 + e) kept).2

/-- The size that counts for a row. -/
def sliceSize (o : SliceOut) : Nat := o.slice.length

/-- The tile that entry k of a context's work codes: 0 where the picture has no tiles. -/
def State.tileOf (s : State) (c k : Nat) : Nat := if s.cSplit c then k else 0

/-- Slices enter the queue in coding order, so those of tile 1 follow every slice of tile 0 (R165): whether tile 1 has to wait. -/
def State.tileWaits (s : State) (c k : Nat) : Bool :=
  s.tileOf c k = 1 && (tget? (s.cx c).work 0).any fun w => w.row < s.cRows c

/-- Slices of tile 0 of the picture in progress, which come before those of tile 1. -/
def State.slicesBefore (s : State) (c k : Nat) : Nat :=
  if s.tileOf c k = 1 then ((tget? (s.cx c).work 0).map (·.slices)).getD 0 else 0

/-- The packets of a tile's slice n. -/
def State.tilePkts (s : State) (c k : Nat) (w : CWork) (n : Nat) (last : Bool) (o : SliceOut) : List (Nat × List Byte) :=
  s.slicePkts c w.pic (s.slicesBefore c k + n) (s.tileOf c k = 0 && n = 0) (last && (!s.cSplit c || k = 1)) o

/-- The slices of tile 1 that have waited enter the queue. -/
def State.flushHold (s : State) (c : Nat) : State :=
  if !s.cSplit c || s.tileWaits c 1 then s
  else match tget? (s.cx c).work 1 with
    | none => s
    | some w =>
      let e := if (s.cx c).both then (s.cx c).engine else 1
      let n := w.slices - w.hold.length
      let s := iter w.hold.zipIdx (fun (x : (SliceOut × Bool) × Nat) s =>
        s.putSlice c e none (s.tilePkts c 1 w (n + x.2) x.1.2 x.1.1)) s
      s.modCx c fun x => { x with work := tput x.work 1 { w with hold := [] } }

/-- A decided slice goes out, or waits for tile 0. -/
def State.outSlice (s : State) (c e k : Nat) (w : CWork) (last coarse : Bool) (finer kept : SliceOut) : State :=
  if s.tileWaits c k then s.modCx c fun x => { x with work := tput x.work k { w with hold := w.hold ++ [(kept, last)] } }
  else s.putSlice c e (if coarse then some (s.tilePkts c k w w.slices last finer) else none) (s.tilePkts c k w w.slices last kept)

/-- The reconstruction of a decided row joins that of the rows above it (R156). -/
def joinRecon (above row : List (List (List Nat))) : List (List (List Nat)) :=
  if above = [] then row else Config.edgeFilter above row

/-- A slice of the whole picture out of its rows (R164). -/
def wholeSlice (acc : List Byte) (o : SliceOut) : SliceOut := { o with slice := acc ++ o.slice }

/-- What a row's strands give fits their caps, their window and the units around them (R148, R154, R162, R163). -/
def State.rowOk (s : State) (c k : Nat) (w : CWork) (allow : Nat) (finer coarser : SliceOut) : Bool :=
  let caps := s.rowCaps c k w allow
  let last := w.row + 1 = s.cRows c
  let first := s.tileOf c k = 0 && w.slices = 0
  let one (cap : Option Nat) (acc : List Byte) (o : SliceOut) : Bool :=
    strandOk cap (s.cCols c k) o && s.needsOk c k w.row w.refs o.needs &&
      ((s.cWhole c && !last) || unitsOk (!s.cPkg c) w.hdr first (last && (!s.cSplit c || k = 1))
        (if s.cWhole c then wholeSlice acc o else o))
  one caps.1 w.acc finer && (w.pic.src.rcv.mode ≠ 2 || one caps.2 w.acc2 coarser)

/-- The work after a row that is decided on its own, and whether the coarser strand was kept (R155, R156). -/
def State.rowWork (s : State) (c k : Nat) (w : CWork) (allow : Nat) (finer coarser : SliceOut) : CWork × Bool :=
  let caps := s.rowCaps c k w allow
  let r := s.rowNext c w allow (sliceSize finer) (sliceSize coarser)
  let kept := if r.2 then coarser else finer
  ({ w with
    row := w.row + 1, used := w.used + sliceSize kept, qps := w.qps ++ [if r.2 then w.base + w.pic.src.rcv.dq else w.base],
    base := r.1, slices := w.slices + 1, recon := joinRecon w.recon kept.recon,
    capped := w.capped + strandCapped (if r.2 then caps.2 else caps.1) kept }, r.2)

/-- The work after a row of a slice of the whole picture: both strands go on, and at the last row one is kept (R155, R164). -/
def State.wholeWork (s : State) (c k : Nat) (w : CWork) (allow : Nat) (finer coarser : SliceOut) : CWork × Bool :=
  let caps := s.rowCaps c k w allow
  let w := { w with
    row := w.row + 1, acc := w.acc ++ finer.slice, acc2 := w.acc2 ++ coarser.slice, recon := joinRecon w.recon finer.recon,
    recon2 := joinRecon w.recon2 coarser.recon, capped := w.capped + strandCapped caps.1 finer,
    capped2 := w.capped2 + strandCapped caps.2 coarser }
  if w.row < s.cRows c then (w, false)
  else
    let r := s.rowNext c w allow w.acc.length w.acc2.length
    ({ w with
      used := if r.2 then w.acc2.length else w.acc.length, qps := [if r.2 then w.base + w.pic.src.rcv.dq else w.base],
      slices := 1, recon := if r.2 then w.recon2 else w.recon, capped := if r.2 then w.capped2 else w.capped }, r.2)

/-- Whether the context's LIVE picture has no further row ready. -/
def State.liveOver (s : State) (c : Nat) (w : CWork) : Bool :=
  s.cClass c = 0 && (s.cx c).rows ≤ w.row && w.row < s.cRows c

/-- One row decision (R155, R156): the row's slice goes out. When no LIVE row is ready, the picture set aside resumes, or the next ready
one starts (R32). A row of a non-LIVE inter picture may have waited for its window (R149). Strands that their caps, the window or the
units of R162 and R163 rule out are none of this engine's, and change nothing (log 1801). -/
def State.cbrRow (s : State) (e : Nat) (finer coarser : SliceOut) (stall : Nat) : State :=
  match (s.ce e).cur with
  | none => s
  | some c =>
    let k := s.cTile c e
    match tget? (s.cx c).work k with
    | none => s
    | some w =>
      let rows := s.cRows c
      let live := s.cClass c = 0
      let allow := s.cAllowance c w
      if rows ≤ w.row || (live && (s.cx c).rows ≤ w.row) || !s.domUp (8 + e) || !s.rowOk c k w allow finer coarser then s
      else
        let last := w.row + 1 = rows
        let whole := s.cWhole c
        let r := if whole then s.wholeWork c k w allow finer coarser else s.rowWork c k w allow finer coarser
        let was := (s.cx c).work.foldl (fun a o => a + o.2.capped) 0
        let n := if whole && !last then 0 else if whole then r.1.capped else r.1.capped - w.capped
        let fo := if whole then wholeSlice w.acc finer else finer
        let co := if whole then wholeSlice w.acc2 coarser else coarser
        let w' := { r.1 with src := s.srcPlanes c e k w.pic.src.fb w.row }
        let s := s.modCx c fun x => { x with work := tput x.work k w' }
        let s := if whole && !last then s
          else s.outSlice c e k { w' with slices := w.slices } last r.2 fo (if r.2 then co else fo)
        let s := s.modCx c fun x => { x with work := match tget? x.work k with
          | some y => tput x.work k { w' with hold := y.hold }
          | none => x.work }
        let s := if last then s.flushHold c else s
        let s := s.winRow c e w.refs w.row (s.cCols c k)
        let s := ((s.bumpBy (Adr.COD_CNT_CAPPED e) n).bumpBy (Adr.COD_CNT_COARSE e) (b2n r.2)).bumpBy (Adr.COD_CNT_LOADSTALL e)
          (if live || w.refs = [] then 0 else stall)
        let s := if 0 < n ∧ (was = 0 || whole) then s.codEvt e 0 else s
        if s.liveOver c w' then (s.modCe e fun x => { x with cur := none }).codNext e else s

/-! ### Pictures end (R144, R152) -/

/-- The mean of slice QPs, rounded half up. -/
def meanQp (l : List Nat) : Option Nat := meanQi l

/-- Every tile of an encode picture is coded: its size counts, it joins the references, and its registers follow. -/
def State.picCoded (s : State) (e c : Nat) (w : CWork) : State :=
  let x := s.cx c
  let size := x.work.foldl (fun a o => a + o.2.used) 0
  let capped := x.work.foldl (fun a o => a + o.2.capped) 0
  let mean := meanQp (x.work.flatMap (·.2.qps))
  let s := s.setCx c { x with
    work := [], rows := x.rowsNext, rowsNext := 0, debt := x.debt + ((size : Nat) : Int) - (s.cNominal c w.pic.src.rcv : Int),
    meanQp := mean, picNum := (x.picNum + 1) % 2 ^ 32 }
  let s := s.keepRef c w.pic (sideBySide (x.work.map (·.2.recon)))
  let s := s.setRegN (Adr.COD_C_STAT c)
    (mean.getD 0 % 64 + 64 * w.pic.type + 256 * b2n w.pic.irap + 65536 * sat 65535 capped)
  let s := (s.setRegN (Adr.COD_C_PICTURE c) x.picNum).dropFb c w.pic.src.fb
  (s.bump (Adr.COD_CNT_PIC e)).occur (0x20 + c)

/-- An encode picture ends on engine e; the whole picture is coded when no engine still works on it. -/
def State.encDone (s : State) (e c : Nat) : State :=
  match tget? (s.cx c).work (s.cTile c e) with
  | none => s
  | some w =>
    if w.row < s.cRows c then s
    else
      let s := if (s.cx c).work.all fun o => s.cRows c ≤ o.2.row then s.picCoded e c w else s
      let s := (s.modCe e fun y => { y with cur := none }).codGo c
      ((s.codWait c).freeBank c).codNext e

/-- The picture in progress of a context ends at once: what is not enqueued is lost, and the queue goes back to the picture's
first slice (R161). -/
def State.codEnd (s : State) (c : Nat) : State :=
  match (s.cx c).work with
  | [] => s
  | (_, w) :: _ =>
    let q := s.cQueue c
    let s := s.dropHeld q fun p => p = 10 || p = 11
    let s := if w.clasp < (s.queue q).tail ∧ (s.qRefuse q).isNone then s.rewindTo q w.clasp else s
    let s := (s.modCx c fun x => { x with work := [], rows := x.rowsNext, rowsNext := 0, gap := true }).dropFb c w.pic.src.fb
    let s := iter (List.range s.nCod) (fun e s => s.modCe e fun y => { y with
      cur := if y.cur = some c then none else y.cur, aside := if y.aside = some c then none else y.aside,
      ready := y.ready.erase c }) s
    s.occur (0x20 + c)

/-- A decode picture in progress ends at once, and its access unit with it, where that is still open once it closes (R161, R185). -/
def State.decAbort (s : State) (c : Nat) : State :=
  if (s.cx c).decoding.isNone then s
  else
    let s := iter (List.range s.nCod) (fun e s => s.modCe e fun y => { y with
      cur := if y.cur = some c then none else y.cur, aside := if y.aside = some c then none else y.aside,
      ready := y.ready.erase c }) s
    (s.modCx c fun x => { x with
      decoding := none, closed := x.closed.drop 1,
      au := if x.closed = [] then x.au.map fun a => { a with drop := true } else x.au }).occur (0x20 + c)

/-- COD_ABORT. -/
def State.codAbort (s : State) (c : Nat) : Nat × State :=
  let x := s.cx c
  if !s.cEn c then (Code.badTarget, s)
  else if (s.cEngines c).any fun e => !s.domRuns (8 + e) then (Code.domainOff, s)
  else if x.work = [] ∧ x.decoding.isNone then (Code.notNow, s)
  else
    let s := ((s.codEnd c).decAbort c).codGo c
    (Code.done, iter (List.range s.nCod) (fun e s => s.codNext e) ((s.codWait c).freeBank c))

/-! ### Retirement and moving (R161) -/

/-- A codec engine is retired. -/
def State.retireCod (s : State) (e : Nat) : State :=
  let mine := (List.range s.nCtx).filter fun c => s.cEn c && (s.cEngines c).contains e
  let s := iter mine (fun c s => (s.codEnd c).decAbort c) s
  let s := s.modCe e fun x => { x with st := 5, ready := [], cur := none, aside := none, bank := [] }
  let s := (s.codEvt e 3).reportHw (33 + e) 3 (target 5 e)
  let s := if s.hasLive ∧ s.cod.rsv = e then (s.codEvt e 5).reportHw (33 + e) 5 (target 5 e) else s
  let s := { s with cod := { s.cod with pend := s.cod.pend ++ [e] } }.occur 0xE0
  iter (List.range s.nCod) (fun e s => s.codNext e) s

/-- A context that no engine can serve reports a fault (R161). -/
def State.ctxLost (s : State) (c : Nat) (reason : Nat) : State :=
  let e := (s.cx c).engine
  s.reportStream (33 + e) 0x0106 (target 2 c) reason

/-- A context goes on with an IDR picture on its engine; a LIVE one that runs takes the second bank there (R160, R161). -/
def State.ctxAnew (s : State) (c : Nat) : State :=
  let s := if s.cDec c then s else s.reorder c
  let s := if s.streamRuns 1 c then s.loadBank c else s
  if s.cDec c then (if (s.cx c).closed = [] then s else s.codWait c) else s.codWait c

/-- The contexts of a retired engine move at the tick, LIVE first, then RECORD, then BULK; past 32 they are parked, BULK first, from
the highest number down. With no engine left they stop (R161). -/
def State.moveCtxs (s : State) (e : Nat) : State :=
  let mine := (List.range s.nCtx).filter fun c => s.cEn c && (s.cEngines c).contains e
  match s.codInService, s.flag Adr.COD_GLB_CTL 1 with
  | o :: _, true =>
    let moved := mine.filter fun c => !(s.cEngines c).contains o
    let order := (List.range 3).flatMap fun k => moved.filter fun c => s.cClass c = k
    let room := 32 - (s.ctxOn o).length
    let go := order.take room
    let stay := order.drop room
    let both := mine.filter fun c => (s.cEngines c).contains o
    let s := if s.cod.rsv = e then { s with cod := { s.cod with rsv := o } } else s
    let s := iter stay (fun c s =>
      let s := s.modCx c fun x => { x with parked := true }
      if s.cClass c = 1 then s.ctxLost c 1 else s) s
    let s := iter go (fun c s => (s.modCx c fun x => { x with engine := o }).ctxAnew c) s
    let s := iter both (fun c s => (s.modCx c fun x => { x with engine := o, both := true }).ctxAnew c) s
    if go = [] ∧ both = [] then s else s.codEvt o 2
  | [], _ =>
    iter ((List.range s.nCtx).filter fun c => s.cEn c && !(s.cx c).parked) (fun c s =>
      (s.modCx c fun x => { x with parked := true, look := [], gop := [], gopSkips := 0, code := [] }).ctxLost c 4) s
  | _, false => iter mine (fun c s => s.ctxLost c 4) s

/-- A repaired engine takes the parked contexts at the tick (R161). -/
def State.codReturn (s : State) (e : Nat) : State :=
  let s := s.modCe e fun x => { x with st := 1 }
  let parked := (List.range s.nCtx).filter fun c => (s.cx c).parked
  let mine := s.ctxOn e
  let s := iter parked (fun c s => (s.modCx c fun x => { x with parked := false, engine := e }).ctxAnew c) s
  iter mine (fun c s => s.ctxAnew c) s

/-- What the codec engines do at a tick about retirement and repair. -/
def State.codTick (s : State) : State :=
  let pend := s.cod.pend
  let back := s.cod.back
  let s := { s with cod := { s.cod with pend := [], back := [] } }
  let s := iter pend (fun e s => s.moveCtxs e) s
  iter back (fun e s => s.codReturn e) s

/-! ### Register views -/

/-- COD_STAT: until boot has completed, its reset value (R166). -/
def State.codStat (s : State) (e : Nat) : Nat :=
  let x := s.ce e
  let st := if x.st = 5 then 5 else if (s.domain (8 + e)).st ≠ .on then 0
    else match x.cur with
      | none => if x.st = 4 || s.engTests 5 e (8 + e) then 4 else 1
      | some c => if s.cDec c then 3 else 2
  let row := match x.cur with
    | none => 0
    | some c => ((tget? (s.cx c).work (s.cTile c e)).map (·.row)).getD 0
  if !s.boot.done then 0xFF00
  else st + 8 * b2n (s.hasLive && s.cod.rsv = e) + 16 * b2n x.aside.isSome + 256 * x.cur.getD 255 + 65536 * (row % 65536)

/-- COD_GLB_STAT. -/
def State.codGlbStat (s : State) : Nat :=
  s.cod.rsv + 2 * (s.codInService.foldl (fun a e => a + 2 ^ e) 0) + 256 * (s.ctxOn 0).length +
    65536 * (if s.fuse.m then 0 else (s.ctxOn 1).length)

end Sys2Proof.Machine
end

