-- ==== Sys2Proof/Machine/Playback.lean ====
section
/-! DEFINITION. Playback (R168 to R194): Facet parts and staging, checking and concealing Facet pictures, H.265 access units,
concealment, references and key requests, and the output of decoded pictures. H.265 parsing and decoding are outside
the spec and come with the commands. Readings are log 19. -/

namespace Sys2Proof.Machine

def State.ps (s : State) (p : Nat) : PStream := tget PStream.fresh s.play p

def State.setPs (s : State) (p : Nat) (x : PStream) : State := { s with play := tset PStream.fresh s.play p x }

def State.modPs (s : State) (p : Nat) (f : PStream → PStream) : State := s.setPs p (f (s.ps p))

def State.pEn (s : State) (p : Nat) : Bool := p < 4 && s.flag (Adr.FCT_P_CTL p) 0
def State.pBulk (s : State) (p : Nat) : Bool := s.fld (Adr.FCT_P_CTL p) 1 2 = 2
def State.pInq (s : State) (p : Nat) : Nat := s.fld (Adr.FCT_P_IO p) 0 12
def State.pOutq (s : State) (p : Nat) : Nat := s.fld (Adr.FCT_P_IO p) 16 12
def State.pCount (s : State) (p : Nat) : Nat := s.fld (Adr.FCT_P_STG_CTL p) 0 4
def State.pSize (s : State) (p : Nat) : Nat := 4096 * s.fld (Adr.FCT_P_STG_CTL p) 8 20

/-- Address of a staging buffer (R172). -/
def State.stgAddr (s : State) (p b : Nat) : Nat :=
  s.pair (Adr.FCT_P_STG_LO p) (Adr.FCT_P_STG_HI p) + b * s.pSize p

/-- An event of the Facet playback table (R193). -/
def State.pEvt (s : State) (p n : Nat) : State := (s.raise Adr.FCT_P_EVT n).setRegN Adr.FCT_P_EVT_STR (p % 4)

/-- An event of the decode output table (R194). -/
def State.dEvt (s : State) (c n : Nat) : State := (s.raise Adr.COD_D_EVT n).setRegN Adr.COD_D_EVT_CTX (c % 64)

/-! ### Byte ranges -/

/-- Byte a lies in a list of ranges [lo, hi). -/
def inRanges (l : List (Nat × Nat)) (a : Nat) : Bool := l.any fun r => r.1 ≤ a && a < r.2

/-- Every byte of [lo, hi) is present and readable. -/
def Stg.has (x : Stg) (lo hi : Nat) : Bool :=
  (List.range' lo (hi - lo)).all fun a => inRanges x.have_ a && !inRanges x.bad a

/-! ### Parts (R171, R172) -/

/-- The staging buffers that no open or closed picture holds. -/
def State.freeStg (s : State) (p : Nat) : Option Nat :=
  (List.range (s.pCount p)).find? fun b => !((s.ps p).stg.any (·.buf = b))

/-- Closes a picture in staging. -/
def State.closeStg (s : State) (p ord : Nat) : State :=
  (s.modPs p fun x => { x with
    stg := x.stg.map fun (g : Stg) => if g.ord = ord then { g with closed := true } else g,
    closed := x.closed ++ (x.stg.filter fun (g : Stg) => g.ord = ord && !g.closed).map (·.number) }).occur (0xA0 + p)

/-- The bytes of a part that lie in the buffer, each with its address and whether the buffer has it already: the ranges of those
that it has. -/
def twiceRanges (present : Nat → Bool) (lo hi : Nat) : Nat :=
  ((List.range' lo (hi - lo)).filter fun a => present a && (a = lo || !present (a - 1))).length

/-- The DRAM port of a Facet playback stream, that of the engine of slot 0 (log 1911). -/
def State.playPort (s : State) : Nat := 3 + s.fct.slots.getD 0 0 % 5

/-- Places a part's bytes: a byte keeps its first value, and bytes beyond the buffer are discarded; each range is counted (R172). -/
def State.placeBytes (s : State) (p : Nat) (g : Stg) (off : Nat) (l : List Byte) : Stg × State :=
  let size := s.pSize p
  let base := s.stgAddr p g.buf
  let stop := min size (off + l.length)
  let fresh := (l.zipIdx off).filter fun x => x.2 < size && !inRanges g.have_ x.2
  let s := s.bumpBy (Adr.FCT_P_CNT_DISCARD p) (twiceRanges (inRanges g.have_) off stop + b2n (l ≠ [] && size < off + l.length))
  let code := s.dramCode s.playPort (base + off) (stop - off) true
  let s := if code = Code.done then
      { s with dram := fresh.foldl (fun (m : List Host.Cell) (x : Byte × Nat) => memPut 0 m (base + x.2) x.1) s.dram }
    else s.dramRefuse s.playPort (base + off) code
  ({ g with have_ := g.have_ ++ (if stop ≤ off then [] else [(off, stop)]) }, s)

/-- PIC_BYTES once the header is present, and every byte of the picture present. -/
def State.stgWhole (s : State) (p : Nat) (g : Stg) : Bool :=
  g.has 0 64 && g.has 0 (leNat (memRead 0 s.dram (s.stgAddr p g.buf + 32) 4))

/-- Takes the oldest part of a Facet playback stream's input queue. -/
def State.part (s : State) (p : Nat) : State :=
  if !s.pEn p then s
  else match s.readPkt (s.pInq p) with
    | (none, _) => s
    | (some (pkt, l, _), after) =>
      let number := leNat (l.take 4)
      let off := leNat ((l.drop 4).take 4)
      let len := leNat ((l.drop 8).take 3)
      let flags := (l.getD 11 0).toNat
      let last := flags % 2 = 1
      let unread := flags / 2 % 2 = 1
      let done := if s.qAutoRel (s.pInq p) then after else after.releaseTo (s.pInq p) pkt.stop
      if (s.ps p).closed.contains number then done.bump (Adr.FCT_P_CNT_DISCARD p)
      else
        let x := s.ps p
        let found := x.stg.find? fun g => g.number = number && !g.closed
        let go (s : State) (g : Stg) : State :=
          let r := if unread then ({ g with bad := g.bad ++ [(off, off + len)] }, s)
            else s.placeBytes p g off ((l.drop 16).take len)
          let s := r.2.modPs p fun x => { x with stg := x.stg.map fun (h : Stg) => if h.ord = g.ord then r.1 else h }
          if last || s.stgWhole p r.1 then s.closeStg p g.ord else s
        match found with
        | some g => go done g
        | none => match s.freeStg p with
          | none => s
          | some b =>
            let g : Stg := ⟨x.opened, number, b, [], [], x.ticks, false, none, []⟩
            go (done.modPs p fun x => { x with opened := x.opened + 1, stg := x.stg ++ [g] }) g

/-- The second stream tick after a picture's first part closes it (R172). -/
def State.partTimeout (s : State) (p number : Nat) : State :=
  match (s.ps p).stg.find? (fun g => g.number = number && !g.closed) with
  | some g => if g.first + 2 ≤ (s.ps p).ticks then s.closeStg p g.ord else s
  | none => s

/-! ### The header (R75, R79 to R81) -/

/-- The fields of a picture header that playback uses. -/
structure Hdr where
  mode : Nat
  depth : Nat
  cfa : Nat
  w : Nat
  h : Nat
  br : Nat
  e : Nat
  flags : Nat
  number : Nat
  degraded : Nat
  tc : Word
  bytes : Nat
  metaLen : Nat
  missing : Nat
  nt : List Nat
  deriving DecidableEq, Repr

/-- Parses 64 bytes; none where R79 makes the picture undecodable. -/
def parseHdr (l : List Byte) : Option Hdr :=
  let n (a k : Nat) := leNat ((l.drop a).take k)
  let h : Hdr := ⟨n 5 1, n 6 1, n 7 1, n 8 2, n 10 2, n 12 1, n 13 1, n 14 1, n 16 4, n 26 2, BitVec.ofNat 32 (n 28 4), n 32 4,
    n 36 2, n 40 4, (List.range 16).map fun i => n (44 + i) 1⟩
  let lay : Lay := ⟨h.w, h.h, h.br⟩
  if n 60 4 = crc32c (l.take 60) ∧ l.take 5 = [0x46, 0x41, 0x43, 0x54, 1] ∧ h.mode ≤ 2 ∧ 10 ≤ h.depth ∧ h.depth ≤ 18 ∧
      256 ≤ h.w ∧ h.w ≤ 16384 ∧ h.w % 16 = 0 ∧ 16 ≤ h.h ∧ h.h ≤ 12288 ∧ h.h % 16 = 0 ∧ 1 ≤ h.br ∧ h.br ≤ 16 ∧
      (h.mode = 1 → 1 ≤ h.e) ∧ (h.mode ≠ 0 → h.nt.all (· < 64)) ∧ h.metaLen ≤ 4096 ∧ h.bytes % 4 = 0 ∧
      64 + h.metaLen + padOf h.metaLen + 4 * lay.segs + 4 ≤ h.bytes then some h
  else none

def Hdr.lay (h : Hdr) : Lay := ⟨h.w, h.h, h.br⟩

def Hdr.picP (h : Hdr) : PicP := ⟨h.mode, h.depth, if h.cfa = 255 then 1 else 2, h.e, h.nt, h.cfa = 255⟩

/-- Offset of the index. -/
def Hdr.idx (h : Hdr) : Nat := 64 + h.metaLen + padOf h.metaLen

/-! ### Decoding and concealing a Facet picture (R174 to R178) -/

/-- A picture in staging as the decoder sees it. -/
structure StgView where
  g : Stg
  base : Nat
  dram : List Host.Cell
  deriving DecidableEq, Repr

def StgView.get (v : StgView) (a n : Nat) : List Byte := memRead 0 v.dram (v.base + a) n

/-- LEN of index entry i where the entry is present. -/
def StgView.len (v : StgView) (h : Hdr) (i : Nat) : Option Nat :=
  if v.g.has (h.idx + 4 * i) (h.idx + 4 * i + 4) then some (leNat (v.get (h.idx + 4 * i) 3)) else none

/-- The layout as far as its entries are present ends before the trailer (R81). -/
def StgView.consistent (v : StgView) (h : Hdr) : Bool :=
  h.idx + 4 * h.lay.segs + ((List.range h.lay.segs).foldl (fun a i => a + (v.len h i).getD 0) 0) + 4 ≤ h.bytes

/-- Segments of a picture: for each its decoded rows with their MISSING blocks, top to bottom; a concealed row is absent. -/
def StgView.coded (v : StgView) (h : Hdr) : Nat → Nat → Option Nat → List (List (List (List Nat) × List Nat))
  | 0, _, _ => []
  | k + 1, i, off =>
    let l := h.lay
    match off, v.len h i with
    | some o, some n =>
      if n = 0 then [] :: v.coded h k (i + 1) none
      else
        let rows := if v.g.has o (o + n) then
            (segGet h.picP (l.nbOf (i % l.ns)) (l.rowsOf (i / l.ns)) none (bytesBits (v.get o n))).1
          else []
        rows :: v.coded h k (i + 1) (some (o + n))
    | _, _ => [] :: v.coded h k (i + 1) none

/-- The decoded blocks with MISSING = 1, by block row and block of the picture (R102). -/
def gapsOf (l : Lay) (coded : List (List (List (List Nat) × List Nat))) : List (Nat × Nat) :=
  coded.zipIdx.flatMap fun sg => sg.1.zipIdx.flatMap fun r => r.1.2.map fun b =>
    (sg.2 / l.ns * l.br + r.2, sg.2 % l.ns * 16 + b)

/-- The decoded block in block row br and block column bc, where it is not concealed. -/
def decBlock (l : Lay) (segs : List (List (List (List Nat)))) (br bc : Nat) : Option (List (List Nat)) :=
  ((segs.getD (br / l.br * l.ns + bc / 16) [])[br % l.br]?).map fun rows => blockAt rows (bc % 16)

/-- The stand-in of a concealed block by the SPATIAL rule (R176). -/
def spatial (p : PicP) (l : Lay) (segs : List (List (List (List Nat)))) (br bc : Nat) : List (List Nat) :=
  let above := (List.range br).reverse.findSome? fun r => decBlock l segs r bc
  let below := (List.range' (br + 1) (l.rows - (br + 1))).findSome? fun r => decBlock l segs r bc
  let mean (pl : Nat) (b : List (List Nat)) (row : Nat) : Nat :=
    ((((planeOfBlock p.mono b pl).drop (8 * row)).take 8).foldl (· + ·) 0 + 4) / 8
  flatBlock p.mono ((List.range 4).map fun pl => match above, below with
    | some b, _ => mean pl b 7
    | none, some b => mean pl b 0
    | none, none => p.mid)

/-- A picture's rows, with concealment: the co-located sample of the last output picture under TEMPORAL. -/
def assemble (p : PicP) (l : Lay) (segs : List (List (List (List Nat)))) (last : Option (List (List Nat))) :
    List (List Nat) :=
  (List.range l.rows).flatMap fun br =>
    let blks := (List.range l.bpr).map fun bc => match decBlock l segs br bc with
      | some b => b
      | none => match last with
        | some rows => ((rows.drop (16 * br)).take 16).map fun (r : List Nat) => (r.drop (16 * bc)).take 16
        | none => spatial p l segs br bc
    (List.range 16).map fun y => blks.flatMap fun b => b.getD y []

/-- The checks of R174 on the size, the geometry and the layout. -/
def State.stgFits (s : State) (p : Nat) (v : StgView) (h : Hdr) : Bool :=
  h.bytes ≤ s.pSize p && h.w ≤ s.fld (Adr.FCT_P_GEOM p) 0 16 && h.h ≤ s.fld (Adr.FCT_P_GEOM p) 16 16 && v.consistent h

/-- The decoded picture, or none where it is undecodable; with CRC_BAD. Its blocks with MISSING = 1 are in `gaps` (R102, R175);
MISSING_BLOCKS of the descriptor is the header's, as R189 has it, which counts the same blocks where every segment decodes; taking
the header's where the two differ is the model's choice (log 1907). Where an index entry is absent the fill is unknown, and the
model reports no FILL_EXCESS (log 1908). -/
def State.decodeStg (s : State) (p : Nat) (v : StgView) (h : Hdr) (last : Option OutPic) (buf : Nat) : Option OutPic :=
  let l := h.lay
  if !s.stgFits p v h then none
  else
    let coded := v.coded h l.segs 0 (some (h.idx + 4 * l.segs))
    let segs := coded.map fun g => g.map (·.1)
    let whole := v.g.has 64 (h.bytes - 4)
    let crcOk := whole && v.g.has (h.bytes - 4) h.bytes &&
      leNat (v.get (h.bytes - 4) 4) = crc32c (v.get 64 (h.bytes - 68))
    if whole ∧ !crcOk ∧ s.flag (Adr.FCT_P_CTL p) 4 then none
    else
      let total := (List.range l.segs).foldl (fun a i => a + (v.len h i).getD 0) 0
      let fill := if (List.range l.segs).all (fun i => (v.len h i).any (1 ≤ ·)) then h.bytes - 4 - (h.idx + 4 * l.segs + total) else 0
      let concealed := (segs.zipIdx).map fun x => decide (x.1.length < l.rowsOf (x.2 / l.ns))
      let any := concealed.any id
      let same := match last with
        | some o => if s.flag (Adr.FCT_P_CTL p) 3 ∧ o.fmt = 0 ∧ o.w = h.w ∧ o.h = h.h ∧ o.depth = h.depth ∧ o.cfa = h.cfa
            then o.planes.head? else none
        | none => none
      let grey := (List.range l.rows).any fun br => (List.range l.bpr).any fun bc =>
        (decBlock l segs br bc).isNone && same.isNone &&
          !((List.range l.rows).any fun r => (decBlock l segs r bc).isSome)
      let flags := b2n any + 8 * b2n (!crcOk) + 16 * (h.flags % 2) + 32 * b2n (0 < h.degraded) +
        128 * (h.flags / 8 % 2) + 256 * (h.flags / 2 % 2) + 512 * (h.flags / 4 % 2) + 2048 * b2n grey +
        4096 * b2n (h.mode < 2 && 3 < fill)
      some ⟨0, h.depth, h.cfa, h.w, h.h, flags, h.number, 0, 0, h.tc, concealed, h.missing, h.degraded,
        [assemble h.picP l segs same], buf, 0, gapsOf l coded⟩

/-- The stand-in for an undecodable picture (R178). What the spec does not state of a grey one, its colour code and its count
of segments, is free (log 2). -/
def State.standIn (s : State) (p : Nat) (h : Option Hdr) (number : Nat) (last : Option OutPic) (buf : Nat)
    (crcBad : Bool) : OutPic × State :=
  let carry := match h with
    | some h => 16 * (h.flags % 2) + 32 * b2n (0 < h.degraded) + 128 * (h.flags / 8 % 2) + 256 * (h.flags / 2 % 2) +
        512 * (h.flags / 4 % 2)
    | none => 0
  let flags := 3 + 8 * b2n crcBad + carry
  let number := (h.map (·.number)).getD number
  let tc := (h.map (·.tc)).getD 0
  let missing := (h.map (·.missing)).getD 0
  let degraded := (h.map (·.degraded)).getD 0
  match last with
  | some o => (⟨0, o.depth, o.cfa, o.w, o.h, flags, number, 0, 0, tc, List.replicate o.map.length true, missing, degraded,
      o.planes, buf, 0, []⟩, s)
  | none =>
    let d := s.fld (Adr.FCT_P_CTL p) 22 5
    let w := s.fld (Adr.FCT_P_GEOM p) 0 16
    let ht := s.fld (Adr.FCT_P_GEOM p) 16 16
    let c := s.freshByte
    let n := c.2.freshWord
    (⟨0, d, c.1.toNat, w, ht, flags + 2048, number, 0, 0, tc, List.replicate (n.1.toNat % 49153) true, missing, degraded,
      [List.replicate ht (List.replicate w (2 ^ (d - 1)))], buf, 0, []⟩, n.2)

/-! ### Output buffers (R187, R191) -/

/-- A stream's output: whether it is a codec context, its number. -/
structure Out where
  cod : Bool
  n : Nat
  deriving DecidableEq, Repr

def outCtl (o : Out) : Nat := if o.cod then Adr.COD_D_OUT_CTL o.n else Adr.FCT_P_OUT_CTL o.n

def State.outSize (s : State) (o : Out) : Nat := 4096 * s.fld (outCtl o) 8 20

def State.outAddr (s : State) (o : Out) (b : Nat) : Nat :=
  (if o.cod then s.pair (Adr.COD_D_OUT_LO o.n) (Adr.COD_D_OUT_HI o.n)
   else s.pair (Adr.FCT_P_OUT_LO o.n) (Adr.FCT_P_OUT_HI o.n)) + b * s.outSize o

def State.outQ (s : State) (o : Out) : Nat := if o.cod then s.fld (Adr.COD_C_IO o.n) 16 12 else s.pOutq o.n

def State.ring (s : State) (o : Out) : OutRing := if o.cod then (s.cx o.n).ring else (s.ps o.n).ring

def State.setRing (s : State) (o : Out) (r : OutRing) : State :=
  if o.cod then s.modCx o.n fun x => { x with ring := r } else s.modPs o.n fun x => { x with ring := r }

/-- The producer that enqueues a stream's output: its codec engine, or the engine of slot 0 (log 1902). -/
def State.outProd (s : State) (d : Out) : Nat :=
  if d.cod then 10 + (s.cx d.n).engine else 5 + s.fct.slots.getD 0 0 % 5

/-- Packets of an output picture are still to be enqueued (R187). -/
def State.outSending (s : State) (o : Out) : Bool :=
  let x := s.queue (s.outQ o)
  s.outQ o ≠ 0 && (x.held.any (fun h => h.prod = s.outProd o) || (x.backlog ≠ [] && x.lock.any fun l => l.1 = s.outProd o))

/-- Buffers that hold a picture not yet output, the last output one, one being enqueued, or one being decoded. -/
def State.outUsed (s : State) (o : Out) : List Nat :=
  let r := s.ring o
  r.list.map (·.buf) ++ (r.last.map (·.buf)).toList ++ (if s.outSending o then r.sent else []) ++
    (if o.cod then (s.cx o.n).held.map (·.buf) ++ (s.cx o.n).decoding.toList
     else (s.ps o.n).stg.filterMap (·.out))

/-- A free buffer of the output ring (R187). -/
def State.outFree (s : State) (o : Out) : Option Nat :=
  let used := s.outUsed o
  (List.range (s.fld (outCtl o) 0 4)).find? fun b =>
    !used.contains b && (s.outQ o ≠ 0 || !(memGet 0 s.dram (s.outAddr o b)).getLsbD 0)

/-! ### FCT_DEC and the decoding of a Facet picture (R169, R174, R187) -/

/-- The closed picture that a handle names: GA[1:0] the playback stream, GA[15:8] the picture's ordinal mod 256 (log 18). -/
def State.stgOf (s : State) (ga : Nat) : Option Stg :=
  (s.ps (ga % 4)).stg.find? fun g => g.closed && g.ord % 256 = ga / 256 % 256

def State.stgView (s : State) (p : Nat) (g : Stg) : StgView := ⟨g, s.stgAddr p g.buf, s.dram⟩

/-- The header of a picture in staging, where it is usable. -/
def State.stgHdr (s : State) (p : Nat) (g : Stg) : Option Hdr :=
  if g.has 0 64 then parseHdr ((s.stgView p g).get 0 64) else none

/-- Bands to be handed out: those of the header, and one where there is no usable header. -/
def State.stgBands (s : State) (p : Nat) (g : Stg) : Nat :=
  match s.stgHdr p g with
  | some h => h.lay.nb
  | none => 1

/-- A staged picture is discarded without decoding (R185, R187). -/
def State.dropStg (s : State) (p ord : Nat) : State :=
  let s := s.modPs p fun x => { x with stg := x.stg.filter fun (g : Stg) => g.ord ≠ ord }
  { s with fct := { s.fct with engines := s.fct.engines.map fun (e : Nat × FEngine) =>
    (e.1, { e.2 with dec := e.2.dec.filter fun d => !(d.1 = p ∧ d.2.1 = ord) }) } }

/-- FCT_DEC (R204): hands band GB of a closed playback picture to slot GB mod A. -/
def State.fctDec (s : State) (ga gb : Nat) : (Nat × Nat) × State :=
  let p := ga % 4
  if !s.pEn p then ((Code.badTarget, 0), s)
  else match s.stgOf ga with
    | none => ((Code.outOfRange, 0), s)
    | some g =>
      if s.stgBands p g ≤ gb then ((Code.outOfRange, 0), s)
      else if s.active = 0 ∨ g.bands.contains gb then ((Code.notNow, 0), s)
      else
        let e := s.fct.slots.getD (gb % s.active) 7
        if s.isRetired e then ((Code.notNow, 0), s)
        else if !s.domRuns (3 + e) then ((Code.domainOff, 0), s)
        else
          let out := match g.out with
            | some b => some b
            | none => s.outFree ⟨false, p⟩
          match out with
          | none =>
            if s.pBulk p then
              ((Code.done, 0), ((s.dropStg p g.ord).bump (Adr.FCT_P_CNT_FULL p)).pEvt p 4)
            else ((Code.notNow, 0), s)
          | some b =>
            let s := s.modPs p fun x => { x with stg := x.stg.map fun (h : Stg) =>
              if h.ord = g.ord then { h with out := some b, bands := h.bands ++ [gb] } else h }
            ((Code.done, 0), s.modEng e fun x => { x with dec := x.dec ++ [(p, g.ord, gb)] })

/-- Every band of the oldest handed picture is decoded: the picture enters the output list (R174 to R178). -/
def State.bandsDecoded (s : State) (p : Nat) : State :=
  match (s.ps p).stg.find? (fun g => g.closed && g.out.isSome && g.bands.length = s.stgBands p g) with
  | none => s
  | some g =>
    let buf := g.out.getD 0
    let last := (s.ps p).ring.last
    let h := s.stgHdr p g
    let dec := h.bind fun h => s.decodeStg p (s.stgView p g) h last buf
    let r := match dec with
      | some o => (o, s)
      | none =>
        let r := s.standIn p h g.number last buf (h.any fun (h : Hdr) => s.stgFits p (s.stgView p g) h)
        (r.1, r.2.pEvt p 1)
    let o := r.1
    let s := r.2
    let s := if o.flags % 2 = 1 then s.pEvt p 0 else s
    let s := if o.flags / 8 % 2 = 1 then s.pEvt p 2 else s
    let s := s.dropStg p g.ord
    let s := s.modPs p fun x => { x with ring := { x.ring with list := x.ring.list ++ [o] } }
    s.occur (0xA4 + p)

/-- A BULK stream's picture is skipped under R29: the oldest staged picture that is not in decode is discarded (R185). -/
def State.skipPlay (s : State) (p : Nat) : State :=
  match (s.ps p).stg.find? (fun g => g.closed && g.out.isNone) with
  | none => s
  | some g => (s.dropStg p g.ord).bump (Adr.FCT_P_CNT_DISCARD p)

/-! ### Output (R188 to R192) -/

/-- Sample format of a stream's output. -/
def State.outFmt (s : State) (o : Out) : Nat := if o.cod then 0 else s.fld (Adr.FCT_P_CTL o.n) 7 2

def State.outRepeat (s : State) (o : Out) : Bool :=
  if o.cod then s.flag (Adr.COD_D_CTL o.n) 1 else s.flag (Adr.FCT_P_CTL o.n) 5

def State.outMap (s : State) (o : Out) : Bool :=
  if o.cod then s.flag (Adr.COD_D_CTL o.n) 2 else s.flag (Adr.FCT_P_CTL o.n) 6

/-- Samples of a row in the output format (R190). -/
def sampleBytes (fmt depth : Nat) (facet : Bool) (l : List Nat) : List Byte :=
  if fmt = 1 then l.flatMap (leBytes 4)
  else if fmt = 2 then packSamples (l.length / 32 + 1) l
  else l.flatMap fun v => leBytes 2 (if facet ∧ 16 < depth then v / 2 ^ (depth - 16) else v)

def rowBytes (fmt w : Nat) : Nat := if fmt = 1 then 4 * w else if fmt = 2 then 72 * ceilDiv w 32 else 2 * w

def perPacket (fmt : Nat) : Nat := if fmt = 1 then 4092 else if fmt = 2 then 7264 else 8184

/-- Bits packed 8 to a byte, bit 0 first (R189). -/
def mapBytes : Nat → List Bool → List Byte
  | 0, _ => []
  | _, [] => []
  | n + 1, l => BitVec.ofNat 8 (((l.take 8).zipIdx).foldl (fun a x => a + b2n x.1 * 2 ^ x.2) 0) :: mapBytes n (l.drop 8)

def OutPic.mapOf (o : OutPic) : List Byte := mapBytes (o.map.length / 8 + 1) o.map

def roundUp (n k : Nat) : Nat := ceilDiv n k * k

/-- The output descriptor (R189). PITCH is the first plane's; queue output has no rows in DRAM and gives 0 (log 1901). -/
def State.descriptor (s : State) (d : Out) (o : OutPic) (again ready : Bool) : List Byte :=
  let dram := s.outQ d = 0
  let fmt := s.outFmt d
  let mapLen := if s.outMap d then (o.map.length + 7) / 8 else 0
  leBytes 4 (b2n ready) ++ leBytes 1 o.fmt ++ leBytes 1 fmt ++ leBytes 1 o.depth ++ leBytes 1 o.cfa ++ leBytes 2 o.w ++
    leBytes 2 o.h ++ leBytes 4 (o.flags + 64 * b2n again + 1024 * b2n (s.outMap d)) ++ leBytes 4 o.number ++
    leBytes 4 (toBits 32 o.poc) ++ leBytes 6 s.clk.count ++ leBytes 1 o.cdepth ++ [0] ++ leBytes 4 o.tc.toNat ++
    leBytes 4 (o.map.filter id).length ++ leBytes 4 o.map.length ++ leBytes 4 mapLen ++
    leBytes 4 (if dram then 32768 else 0) ++ leBytes 4 (if dram then roundUp (rowBytes fmt o.w) 256 else 0) ++
    leBytes 4 o.missing ++ leBytes 2 o.degraded ++ [0, 0]

/-- The packets of one row (R192). -/
def rowPkts (fmt depth : Nat) (facet : Bool) (number plane row : Nat) : Nat → Nat → List Nat → List (List Byte)
  | 0, _, _ => []
  | _, _, [] => []
  | n + 1, first, l =>
    let part := l.take (perPacket fmt)
    (leBytes 4 number ++ leBytes 1 plane ++ leBytes 1 fmt ++ leBytes 2 row ++ leBytes 2 first ++ leBytes 2 part.length ++
      [0, 0, 0, 0] ++ sampleBytes fmt depth facet part) ::
      rowPkts fmt depth facet number plane row n (first + part.length) (l.drop (perPacket fmt))

/-- The packets of an output picture (R192). -/
def State.outPkts (s : State) (d : Out) (o : OutPic) (again : Bool) : List (List Byte) :=
  let fmt := s.outFmt d
  let m := if s.outMap d then o.mapOf else []
  let desc := s.descriptor d o again false
  let head := if m.length ≤ 16320 then [desc ++ m] else [desc ++ m.take 16320, m.drop 16320]
  head ++ (o.planes.zipIdx).flatMap fun pl => (pl.1.zipIdx).flatMap fun r =>
    rowPkts fmt o.depth (o.fmt = 0) o.number pl.2 r.2 (r.1.length / perPacket fmt + 1) 0 r.1

/-- Writes a picture in its ring buffer: planes and map, then the descriptor with READY (R191). -/
def State.outDram (s : State) (d : Out) (o : OutPic) : State :=
  let base := s.outAddr d o.buf
  let fmt := s.outFmt d
  let pitch := roundUp (rowBytes fmt o.w) 256
  let port := if d.cod then 8 + (s.cx d.n).engine else s.playPort
  let s := iter (o.planes.flatMap fun pl => pl).zipIdx (fun (r : List Nat × Nat) s =>
    s.dramPut port (base + 32768 + r.2 * pitch) (sampleBytes fmt o.depth (o.fmt = 0) r.1)) s
  let s := if s.outMap d then s.dramPut port (base + 64) o.mapOf else s
  s.dramPut port base (s.descriptor d o false true)

/-- Status registers of the last output picture. -/
def State.outStat (s : State) (d : Out) (o : OutPic) (again : Bool) : State :=
  let units := sat 65535 (o.map.filter id).length
  if d.cod then
    s.setRegN (Adr.COD_D_STAT d.n) (o.flags % 2 + 2 * (o.flags / 2 % 2) + 4 * (o.flags / 4 % 2) + 8 * b2n again +
      16 * b2n (s.cx d.n).taint + 65536 * units)
  else
    (s.setRegN (Adr.FCT_P_STAT d.n) (o.flags % 2 + 2 * (o.flags / 2 % 2) + 4 * (o.flags / 8 % 2) + 8 * b2n again +
      65536 * units)).setRegN (Adr.FCT_P_PICTURE d.n) o.number

/-- Sends a picture's packets, each with FENCE_WR (R242). -/
def State.outSend (s : State) (d : Out) (o : OutPic) (again : Bool) : State :=
  (s.sendAll (s.outQ d) (s.outProd d) ((s.outPkts d o again).map fun l => (0, l)) .wr).2

/-- Ticks of a playback stream. -/
def State.outTicks (s : State) (d : Out) : Nat := if d.cod then (s.cx d.n).ticks else (s.ps d.n).ticks

/-- OUT_PIC (R188, R204). A stream outputs at most one picture on each of its ticks (R168): a further OUT_PIC before its next tick is
answered NOT_NOW and does nothing, which is the model's choice (log 1906). -/
def State.outPic (s : State) (ga : Nat) : (Nat × Nat) × State :=
  let d : Out := ⟨ga / 64 % 4 ≠ 0, ga % 64⟩
  let known := ga < 128 && (if d.cod then s.cEn d.n && s.cDec d.n else s.pEn d.n)
  if !known then ((Code.badTarget, 0), s)
  else if s.outTicks d ≤ (s.ring d).at_ then ((Code.notNow, 0), s)
  else
    let r := { s.ring d with at_ := s.outTicks d }
    let sent := if s.outSending d then r.sent else []
    let s := s.setRing d r
    match r.list with
    | o :: rest =>
      let s := s.setRing d { r with list := rest, last := some o, sent := if s.outQ d = 0 then [] else sent ++ [o.buf] }
      let s := if s.outQ d = 0 then
          let s := s.outDram d o
          if d.cod then s.dEvt d.n 6 else s.pEvt d.n 5
        else s.outSend d o false
      let s := s.outStat d o false
      let marked := if d.cod then o.flags % 2 = 1 ∨ o.flags / 4 % 2 = 1 else o.flags % 2 = 1
      let s := if d.cod then s else s.bump (Adr.FCT_P_CNT_PIC d.n)
      ((Code.done, 0), s.bumpBy (if d.cod then Adr.COD_D_CNT_CONCEAL d.n else Adr.FCT_P_CNT_CONCEAL d.n) (b2n marked))
    | [] =>
      let s := if d.cod then (s.dEvt d.n 4).bump (Adr.COD_D_CNT_LATE d.n) else (s.pEvt d.n 3).bump (Adr.FCT_P_CNT_LATE d.n)
      match r.last with
      | some o =>
        if s.outRepeat d ∧ s.outQ d ≠ 0 then ((Code.done, 0), (s.outSend d o true).outStat d o true)
        else ((Code.done, 0), s)
      | none => ((Code.done, 0), s)

/-! ### H.265 access units (R173, R179) -/

/-- Closes the open access unit of a context: it waits for decoding, or is discarded. -/
def State.closeAu (s : State) (c : Nat) : State :=
  let x := s.cx c
  match x.au with
  | none => s
  | some a =>
    if a.drop then s.setCx c { x with au := none }
    else if x.waitIrap && !a.irap then
      (s.setCx c { x with au := none }).bumpBy (Adr.COD_D_CNT_DISCARD c) a.n
    else if a.slices = 0 ∧ 0 < a.skipped then
      (s.setCx c { x with au := none }).bump (Adr.COD_D_CNT_DISCARD c)
    else s.setCx c { x with au := none, closed := x.closed ++ [⟨a.n, a.slices, a.irap⟩], waitIrap := x.waitIrap && !a.irap }

/-- One NAL unit of an access unit. -/
def State.oneNal (s : State) (c : Nat) (n : NalInfo) : State :=
  let s := if n.starts then s.closeAu c else s
  let x := s.cx c
  let a := x.au.getD ⟨0, 0, 0, false, x.ticks, false⟩
  if n.slice && n.skip then
    (s.setCx c { x with au := some { a with skipped := a.skipped + 1 } }).bump (Adr.COD_D_CNT_DISCARD c)
  else
    let first := n.slice && a.slices = 0 && !(x.waitIrap && !n.irap)
    let s := s.setCx c { x with
      au := some { a with n := a.n + 1, slices := a.slices + b2n n.slice, irap := a.irap || (n.slice && n.irap) } }
    if first then s.occur (0x60 + c) else s

/-- NAL_UNIT: the oldest packet of a decode context's input queue, with what parsing finds of its NAL units (R173). -/
def State.nalUnit (s : State) (c : Nat) (nals : List NalInfo) : State :=
  if !s.cEn c || !s.cDec c then s
  else match s.readPkt (s.cQueue c) with
    | (none, _) => s
    | (some (pkt, l, _), after) =>
      let s := if s.qAutoRel (s.cQueue c) then after else after.releaseTo (s.cQueue c) pkt.stop
      let flags := (l.getD 3 0).toNat
      let units := if flags / 16 % 2 = 1 then [⟨false, false, false, false⟩]
        else if s.cPkg c then nals.take 1 else nals
      let s := iter units (fun n s => s.oneNal c n) s
      if flags / 2 % 2 = 1 then s.closeAu c else s

/-- The second stream tick after the unit's first NAL unit closes it (R173). -/
def State.auTimeout (s : State) (c : Nat) : State :=
  match (s.cx c).au with
  | some a => if a.first + 2 ≤ (s.cx c).ticks then s.closeAu c else s
  | none => s

/-! ### Decoding an access unit (R180 to R185) -/

/-- Closed access units before the next one to decode: the one in decode. -/
def Ctx.inDecode (x : Ctx) : Nat := b2n x.decoding.isSome

/-- An access unit of a context waits for decoding. -/
def Ctx.hasAu (x : Ctx) : Bool := x.inDecode < x.closed.length

/-- The next access unit of a context is skipped under R29 (R185). -/
def State.skipAu (s : State) (c : Nat) : State :=
  ((s.modCx c fun x => { x with closed := x.closed.take x.inDecode ++ x.closed.drop (x.inDecode + 1) }).bump
    (Adr.COD_CNT_SKIP (s.cx c).engine)).occur (0x20 + c)

/-- COD_PIC for a decode context (R144, R187). -/
def State.codPicDec (s : State) (c imm : Nat) : Nat × State :=
  match s.cRefuse c with
  | some k => (k, s)
  | none =>
    let x := s.cx c
    if imm / 2 % 2 = 1 then (if x.hasAu then (Code.done, s.skipAu c) else (Code.notNow, s))
    else
      let inside := x.au.any fun a => 0 < a.slices && !(x.waitIrap && !a.irap) && !a.drop
      if x.decoding.isSome || (x.closed = [] && !inside) then (Code.notNow, s)
      else match s.outFree ⟨true, c⟩ with
        | some b => (Code.done, (s.setCx c { x with decoding := some b }).codReady c)
        | none =>
          if s.cClass c = 2 ∧ x.closed ≠ [] then
            let s := s.setCx c { x with closed := x.closed.drop 1 }
            (Code.done, ((s.bump (Adr.COD_D_CNT_FULL c)).dEvt c 5).occur (0x20 + c))
          else (Code.notNow, s)

/-- A key request falls due (R186). -/
def State.wantKey (s : State) (c : Nat) : State :=
  if s.flag (Adr.COD_D_CTL c) 0 then
    s.modCx c fun x => if x.episode.isSome then x else { x with reqNext := true }
  else s

/-- Sends a context's key request; where the group's list cannot take it, it stays due (R186, R338). SEQ counts the key requests of
its Crossing group (R62, R339; log 1909). -/
def State.sendKey (s : State) (c : Nat) : State :=
  let g := s.fld (Adr.COD_D_CTL c) 3 2
  let m : List Byte := [0x10, 0, BitVec.ofNat 8 (s.xg g).keySeq, 0] ++ leBytes 2 (s.fld (Adr.COD_D_CTL c) 16 16) ++ [0, 0] ++
    leBytes 6 s.clk.count ++ [0, 0]
  let r := s.ctlPut g m
  if r.1 = Code.done then
    (((r.2.modXg g fun x => { x with keySeq := (x.keySeq + 1) % 256 }).modCx c
      fun x => { x with reqNext := false, episode := some 0 }).dEvt c 3).bump (Adr.COD_D_CNT_KEYREQ c)
  else s.modCx c fun x => { x with reqNext := true }

/-- KEY_RETRY ticks have passed with the last decoded picture still tainted (R186). -/
def State.keyRetry (s : State) (c : Nat) : State :=
  let x := s.cx c
  if s.cEn c && s.cDec c && x.taint && x.episode.any fun n => s.fld (Adr.COD_D_CTL c) 8 8 ≤ n then s.sendKey c else s

/-- Output order of two pictures: by coded video sequence, then by order count. -/
def outBefore (a b : Nat × Int) : Bool := a.1 < b.1 || (a.1 = b.1 && a.2 < b.2)

/-- Rows and columns of each plane. -/
def planeDims (l : List (List (List Nat))) : List (Nat × Nat) := l.map fun p => (p.length, (p.headD []).length)

/-- Of some pictures the nearest earlier one in output order; one of another size has no co-located samples (log 1910). -/
def nearest (l : List (Nat × Int × List (List (List Nat)))) (key : Nat × Int) (dims : List (Nat × Nat)) :
    Option (List (List (List Nat))) :=
  (l.foldl (fun (b : Option (Nat × Int × List (List (List Nat)))) d =>
    if outBefore (d.1, d.2.1) key && planeDims d.2.2 == dims then (match b with
      | some e => if outBefore (e.1, e.2.1) (d.1, d.2.1) then some d else b
      | none => some d) else b) none).map (·.2.2)

def OutPic.seen (o : OutPic) : Nat × Int × List (List (List Nat)) := (o.epoch, o.poc, o.planes)

/-- Pictures that R181 copies from: the decoded picture buffer and the last output picture. -/
def Ctx.shown (x : Ctx) (dpb : List DPic) : List (Nat × Int × List (List (List Nat))) :=
  dpb.map (fun d => (d.epoch, d.poc, d.planes)) ++ (x.ring.last.map (·.seen)).toList

/-- Decoded pictures that R182 takes a substitute from: those, and what waits for output. -/
def Ctx.decodedPics (x : Ctx) (dpb : List DPic) : List (Nat × Int × List (List (List Nat))) :=
  x.shown dpb ++ x.held.map (·.seen) ++ x.ring.list.map (·.seen)

def refPic (dpb : List DPic) (poc : Int) : Option DPic := dpb.find? (·.poc = poc)

/-- Chroma subsampling of component k: columns and rows. -/
def subOf (chroma k : Nat) : Nat × Nat :=
  if k = 0 ∨ chroma = 3 then (1, 1) else if chroma = 2 then (2, 1) else (2, 2)

/-- The CTU of sample (y, x) of component k of the cropped picture. -/
def ctuOf (v : DecEnv) (k y x : Nat) : Nat :=
  let b := subOf v.chroma k
  (y * b.2 + v.y0) / max 1 v.ctb * v.cols + (x * b.1 + v.x0) / max 1 v.ctb

def sampleAt (pl : List (List (List Nat))) (k y x : Nat) : Nat := nth ((pl.getD k []).getD y []) x

/-- The CTUs that no remaining slice segment covers, where the access unit has brought n slice segments (R180). -/
def lostCtus (v : DecEnv) (n : Nat) : List Nat :=
  (List.range v.total).filter fun i => !((v.segs.take n).any fun g => g.contains i)

/-- The picture that concealment copies from: the first reference of R181 rule 1, which may be a substitute, or the nearest of
rule 2. The flag says that a grey picture serves as the reference. -/
def concealFrom (v : DecEnv) (x : Ctx) (dpb : List DPic) (key : Nat × Int) : Option (List (List (List Nat))) × Bool :=
  match v.ref0 with
  | some r => match refPic dpb r with
    | some d => (some d.planes, false)
    | none => match nearest (x.decodedPics dpb) key (planeDims v.planes) with
      | some pl => (some pl, false)
      | none => (none, true)
  | none => (nearest (x.shown dpb) key (planeDims v.planes), false)

/-- The sample of a concealed CTU (R181). -/
def concealSample (v : DecEnv) (lost : List Nat) (src : Option (List (List (List Nat))) × Bool) (k y x : Nat) : Nat :=
  let grey := 2 ^ ((if k = 0 then v.depth else v.cdepth) - 1)
  match src with
  | (some pl, _) => sampleAt pl k y x
  | (none, true) => grey
  | (none, false) =>
    let c := ctuOf v k y x
    let row := c / max 1 v.cols
    let col := c % max 1 v.cols
    match (List.range row).reverse.find? (fun r => !lost.contains (r * v.cols + col)) with
    | some r =>
      let b := subOf v.chroma k
      sampleAt v.planes k (((r + 1) * v.ctb - v.y0) / b.2 - 1) x
    | none => grey

/-- Whether mid-grey serves for some sample of a concealed CTU. -/
def concealGrey (v : DecEnv) (lost : List Nat) (src : Option (List (List (List Nat))) × Bool) : Bool :=
  match src with
  | (some _, _) => false
  | (none, true) => lost ≠ []
  | (none, false) => lost.any fun c =>
    !((List.range (c / max 1 v.cols)).any fun r => !lost.contains (r * v.cols + c % max 1 v.cols))

def concealPlanes (v : DecEnv) (lost : List Nat) (src : Option (List (List (List Nat))) × Bool) : List (List (List Nat)) :=
  if lost = [] then v.planes
  else (v.planes.zipIdx).map fun pl => (pl.1.zipIdx).map fun r => (r.1.zipIdx).map fun x =>
    if lost.contains (ctuOf v pl.2 r.2 x.2) then concealSample v lost src pl.2 r.2 x.2 else x.1

/-- Chroma formats and bit depths of a profile that the decoder supports (R138). -/
def decProfile (p : Nat) : List Nat × List Nat :=
  if p = 0 then ([1], [8]) else if p = 1 then ([1], [8, 10]) else if p = 2 ∨ p = 3 then ([1, 2], [8, 10])
  else if p = 4 then ([0, 1], [8, 9, 10, 11, 12]) else if p = 5 then ([0, 1, 2, 3], [8]) else ([], [])

def inProfile (v : DecEnv) (p : Nat) : Bool :=
  (decProfile p).1.contains v.chroma && (decProfile p).2.contains v.depth && (v.chroma = 0 || (decProfile p).2.contains v.cdepth)

/-- The SPS's profile, size and chroma format lie within R138, R141 and COD_C_GEOM (R184). -/
def State.decFits (s : State) (c : Nat) (v : DecEnv) : Bool :=
  (v.profile.any (inProfile v) || v.compat.any fun k => k.2 && inProfile v k.1) &&
    64 ≤ v.lw && v.lw ≤ 8192 && 64 ≤ v.lh && v.lh ≤ 4352 && v.lw ≤ s.cWidth c && v.lh ≤ s.cHeight c

/-- Frees the engine and the buffer after an access unit, and takes the next picture. -/
def State.decEnd (s : State) (e c busy : Nat) : State :=
  let s := s.modCx c fun x => { x with decoding := none, closed := x.closed.drop 1 }
  let s := s.modCe e fun y => { y with cur := none, busy := y.busy + busy }
  ((s.occur (0x20 + c)).codGo c).codNext e

/-- After a discarded access unit, what has come is discarded until the first IRAP picture (R179). -/
def State.toIrap (s : State) (c : Nat) : State :=
  let x := s.cx c
  let l := x.closed.dropWhile fun a => !a.irap
  let n := (x.closed.takeWhile fun a => !a.irap).foldl (fun k a => k + a.n) 0
  (s.setCx c { x with closed := l, waitIrap := l = [] }).bumpBy (Adr.COD_D_CNT_DISCARD c) n

/-- The pictures now output, in order, out of those held; the oldest first of one order count. -/
def takeOut : List Int → List OutPic → List OutPic × List OutPic
  | [], l => ([], l)
  | r :: rs, l => match l.find? (fun o => o.poc = r) with
    | none => takeOut rs l
    | some o =>
      let t := takeOut rs (l.erase o)
      (o :: t.1, t.2)

/-- The end of a decode picture: the closed access unit is decoded, concealed or discarded. -/
def State.decDone (s : State) (e c busy : Nat) (v : DecEnv) : State :=
  let x := s.cx c
  match x.decoding, x.closed with
  | some buf, a :: _ =>
    if !v.usable || !s.decFits c v then
      (((s.bump (Adr.COD_D_CNT_DISCARD c)).dEvt c 2).wantKey c).decEnd e c busy |>.toIrap c
    else if v.segs.take a.slices = [] then (s.bump (Adr.COD_D_CNT_DISCARD c)).decEnd e c busy
    else
      let lost := lostCtus v a.slices
      let dpb := if v.start then [] else x.dpb.filter fun d => v.keep.contains d.poc
      let absent := v.curr.any fun r => (refPic dpb r).isNone
      let epoch := x.epoch + b2n v.start
      let key := (epoch, v.poc)
      let src := concealFrom v x dpb key
      let grey := concealGrey v lost src || (absent && (nearest (x.decodedPics dpb) key (planeDims v.planes)).isNone)
      let planes := concealPlanes v lost src
      let own := lost ≠ [] || absent
      let taint := !(v.irap && lost = []) && (own || v.curr.any fun r => ((refPic dpb r).map (·.taint)).getD false)
      let refBad := absent || (taint && !own)
      let flags := b2n (lost ≠ []) + 4 * b2n refBad + 128 * b2n v.gap + 256 * b2n v.irap + 512 * b2n v.tc.isSome +
        2048 * b2n grey
      let o : OutPic := ⟨1, v.depth, v.chroma, v.w, v.h, flags, x.picNum, v.poc, v.cdepth, v.tc.getD 0,
        (List.range v.total).map fun i => lost.contains i, 0, 0, planes, buf, epoch, []⟩
      let out := takeOut v.bump (x.held ++ [o])
      let s := s.setCx c { x with
        dpb := dpb ++ [⟨epoch, v.poc, planes, taint⟩], held := out.2, epoch := epoch,
        ring := { x.ring with list := x.ring.list ++ out.1 }, taint := taint, picNum := (x.picNum + 1) % 2 ^ 32,
        episode := if v.irap && !taint then none else x.episode }
      let s := (s.setRegN (Adr.COD_C_PICTURE c) x.picNum).setRegN (Adr.COD_C_STAT c) (v.qp % 64 + 64 * (v.type % 4) + 256 * b2n v.irap)
      let s := s.setFld (Adr.COD_D_STAT c) 4 1 (b2n taint)
      let s := if lost ≠ [] then s.dEvt c 0 else s
      let s := if absent then s.dEvt c 1 else s
      let s := if absent || (lost ≠ [] && !v.nonRef) then s.wantKey c else s
      (s.bump (Adr.COD_CNT_PIC e)).decEnd e c busy
  | _, _ => s

/-- A picture ends on codec engine e. -/
def State.codecDone (s : State) (e busy : Nat) (v : DecEnv) : State :=
  match (s.ce e).cur with
  | none => s
  | some c => if s.cDec c then s.decDone e c busy v else (s.encDone e c).modCe e fun y => { y with busy := y.busy + busy }

/-- COD_PIC (R204). -/
def State.codPic (s : State) (c imm : Nat) : Nat × State := if s.cDec c then s.codPicDec c imm else s.codPicEnc c imm

end Sys2Proof.Machine
end

