-- ==== Sys2Proof/Machine/Ferry.lean ====
section
/-! DEFINITION. Crossing (R327 to R342): the Ferry link's training, packets, acknowledgement, replay and credits, the back-channel,
and frames received on Ethernet ports. Readings are log 20. -/

namespace Sys2Proof.Machine

/-! ### Lanes and training of a Ferry group (R331) -/

/-- The configured width in lanes. -/
def State.xgWidth (s : State) (g : Nat) : Nat := 2 ^ (s.fld (Adr.XCV_CTL g) 5 2)

def State.xEvt (s : State) (g n : Nat) : State := s.raise (Adr.XCV_EVT g) n

/-- The group leaves UP, or its training starts again (R331). -/
def State.xgRestart (s : State) (g : Nat) : State :=
  let x := s.xg g
  let s := if x.st = 6 then s.xEvt g 1 else s
  s.setXg g { x with st := 0, lock := 0, marks := 0, peer := 0, agree := 0 }

def State.xcvSignal (s : State) (g lanes : Nat) : State :=
  let x := s.xg g
  let l := lanesAnd lanes (2 ^ s.xgWidth g - 1)
  if s.ferryOn g && x.st = 0 && 0 < popcount l then
    let s := s.startSteps (Adr.XCV_EQ_CTL g) (Adr.XCV_EQ_STAT g) 4 l x.eqd
    s.setXg g { x with st := 1, sig := l, lock := 0, marks := 0, map := List.replicate 4 15, peer := 0, agree := 0 }
  else s

def State.xcvCdr (s : State) (g lanes : Nat) : State :=
  let x := s.xg g
  if s.ferryOn g && x.st = 1 && lanesIn x.sig lanes then s.setXg g { x with st := 2 } else s

def State.xcvBlock (s : State) (g lanes : Nat) : State :=
  let x := s.xg g
  let l := lanesOr x.lock (lanesAnd x.sig lanes)
  if !s.ferryOn g || x.st < 2 || x.st = 7 then s
  else if x.st = 2 ∧ lanesIn x.sig l then s.setXg g { x with st := 3, lock := x.sig, marks := 0 }
  else s.setXg g { x with lock := l }

/-- The search is complete: the group enters HANDSHAKE. -/
def State.xcvEq (s : State) (g : Nat) (o : List (List Nat)) : State :=
  let x := s.xg g
  if s.ferryOn g && x.st = 4 && lanesIn x.sig x.lock then
    let s := s.searchSteps (Adr.XCV_EQ_CTL g) (Adr.XCV_EQ_STAT g) x.sig o
    s.setXg g { x with st := 5, eqd := lanesOr x.eqd x.sig, peer := 0, agree := 0 }
  else s

/-- 20 ms after leaving DOWN the link is not UP (R331). -/
def State.xcvTimeout (s : State) (g : Nat) : State :=
  let x := s.xg g
  if s.ferryOn g && 1 ≤ x.st && x.st ≤ 5 then
    (((s.setXg g { x with st := 7, lock := 0 }).bump (Adr.XCV_CNT_LOCKLOSS g)).xEvt g 1).reportHw (24 + g) 1 (target 7 g)
  else s

def State.xcvRetrain (s : State) (g : Nat) : State :=
  let x := s.xg g
  if s.ferryOn g && x.st = 7 then s.setXg g { x with st := 0, lock := 0 } else s

def State.xcvAdapt (s : State) (g : Nat) (o : List (Nat × Nat × Nat)) : State :=
  if s.ferryUp g then s.adapt (Adr.XCV_EQ_CTL g) (Adr.XCV_EQ_STAT g) (s.xg g).sig o else s

/-- A lane in use is lost: a Ferry link has no parity lane, so it trains again (R330, R331). -/
def State.xcvLose (s : State) (g lane : Nat) : State :=
  let x := s.xg g
  if s.ferryOn g && hasLane x.lock lane && lane < 4 then
    let s := (s.setXg g { x with lock := delLane x.lock lane }).bump (Adr.XCV_CNT_LOCKLOSS g)
    if x.st = 6 ∧ x.map.getD lane 15 ≠ 15 then s.xgRestart g else s
  else s

def State.xcvDeskew (s : State) (g : Nat) (ms : List DeskewMark) : State :=
  if !s.ferryOn g then s
  else
    let x := s.xg g
    if x.st = 3 then
      match markMap 4 x.sig (s.xgWidth g) false ms with
      | none => s.setXg g { x with marks := 0 }
      | some (m, _, _) =>
        if x.marks = 1 ∧ x.markMap = m then
          let s := s.setXg g { x with marks := 0, map := m, st := 4 }
          if s.flag (Adr.XCV_EQ_CTL g) 1 then s.xcvEq g [] else s
        else s.setXg g { x with marks := 1, markMap := m }
    else if x.st = 6 then
      let seq := commonSeq ms
      let bad := (List.range 4).filter fun k =>
        x.map.getD k 15 ≠ 15 && !(ms.any fun m => m.lane = k && m.late ≤ 32 && m.seq = seq && m.slot = x.map.getD k 15)
      iter bad (fun k s => s.xcvLose g k) s
    else s

/-- A control block that is lost, or of a type the Ferry link has not (R330). -/
def State.xcvBad (s : State) (g : Nat) : State :=
  if s.ferryOn g then (s.bump (Adr.XCV_CNT_CRCERR g)).xEvt g 5 else s

/-! ### Signed differences of sequence numbers (R334, R336) -/

/-- a − b as a signed difference of n bits. -/
def sdiff (n a b : Nat) : Int := sext n (a + 2 ^ n - b % 2 ^ n)

/-! ### Credit (R336) -/

def State.rxEn (s : State) (g ch : Nat) : Bool := ch < 64 && s.flag (Adr.XCV_RXCH g ch) 15
def State.rxQueue (s : State) (g ch : Nat) : Nat := s.fld (Adr.XCV_RXCH g ch) 0 12
def State.rxChan (s : State) (g ch : Nat) : RxChan := tget RxChan.fresh (s.xg g).rx ch

def State.setRx (s : State) (g ch : Nat) (c : RxChan) : State :=
  s.modXg g fun x => { x with rx := tset RxChan.fresh x.rx ch c }

/-- Sends a CREDIT block with the channel's present limit. -/
def State.sendCredit (s : State) (g ch : Nat) : State :=
  let c := s.rxChan g ch
  (s.setRx g ch { c with told := c.grown }).emit
    (.ferryCredit g ch ((s.fld (Adr.XCV_RXCH g ch) 16 16 + c.grown) % 2 ^ 24))

/-- The limit grows by the packets whose last byte REL has passed; a growth of 16 is sent at once. -/
def State.growCredit (s : State) (g ch : Nat) : State :=
  let c := s.rxChan g ch
  let rel := (s.queue (s.rxQueue g ch)).rel
  let add := (c.held.filter fun h => h.1 ≤ rel).foldl (fun (a : Nat) h => a + h.2) 0
  if add = 0 then s
  else
    let c := { c with grown := c.grown + add, held := c.held.filter fun h => !(h.1 ≤ rel) }
    let s := s.setRx g ch c
    if c.told + 16 ≤ c.grown ∧ s.ferryUp g then s.sendCredit g ch else s

/-- Every channel of every group. -/
def State.creditScan (s : State) : State :=
  iter s.xcv (fun (x : Nat × XGroup) s => iter (x.2.rx.map (·.1)) (fun ch s => s.growCredit x.1 ch) s) s

def State.creditAll (s : State) (g : Nat) : State :=
  iter ((List.range 64).filter (s.rxEn g)) (fun ch s => s.sendCredit g ch) s

/-! ### Replay (R335) -/

def State.txChan (s : State) (g ch : Nat) : TxChan := tget ⟨0, 0⟩ (s.xg g).tx ch

def State.setTx (s : State) (g ch : Nat) (c : TxChan) : State :=
  s.modXg g fun x => { x with tx := tset ⟨0, 0⟩ x.tx ch c }

/-- The buffer of a reference packet whose bytes a port has finished sending is freed as its Crossing group's requester (R261); a
Ferry port has finished when the far end has acknowledged them, since it may have to send them again (R335). -/
def State.freeSent (s : State) (q : Nat) (k : Pkt) : State :=
  match k.handle with
  | some (h, _) => (s.freeBuf (consumerReq (s.qCons q) (s.qConsIdx q)) h).2
  | none => s

def State.freeAt (s : State) (q start : Nat) : State :=
  match (s.queue q).pkts.find? fun k => k.taken && k.start = start with
  | some k => s.freeSent q k
  | none => s

/-- Entries up to SEQ a leave the retry list, and their queues are released. -/
def State.ferryAckTo (s : State) (g a : Nat) : State :=
  let x := s.xg g
  let gone := x.retry.filter fun e => sdiff 16 e.seq a ≤ 0
  if gone = [] ∨ 0 ≤ sdiff 16 a x.txSeq then s
  else
    let s := s.setXg g { x with retry := x.retry.filter (fun e => !(sdiff 16 e.seq a ≤ 0)), replays := 0 }
    let done := gone.filter fun e => e.ctl.isNone && e.last
    iter done (fun e s => if (s.queue e.q).rel < e.stop ∧ e.stop ≤ (s.queue e.q).read ∧ (s.qRefuse e.q).isNone then
      (s.freeAt e.q e.start).releaseTo e.q e.stop else s) s

/-- Takes back every entry at or after SEQ a: the queues rewind, credit returns, CONTROL messages go to the front. -/
def State.takeBack (s : State) (g a : Nat) : State :=
  let x := s.xg g
  let back := x.retry.filter fun e => 0 ≤ sdiff 16 e.seq a
  let s := s.setXg g { x with
    retry := x.retry.filter (fun e => !(0 ≤ sdiff 16 e.seq a)), txSeq := a % 65536,
    ctl := back.filterMap (·.ctl) ++ x.ctl }
  let s := iter back (fun e s => if e.ctl.isSome then s
    else
      let c := s.txChan g e.ch
      s.setTx g e.ch { c with used := (c.used + 2 ^ 24 - e.units % 2 ^ 24) % 2 ^ 24 }) s
  let qs := ((back.filter (·.ctl.isNone)).map (·.q)).eraseDups
  iter qs (fun q s => match back.find? (fun e => e.ctl.isNone && e.q = q) with
    | some e =>
      let s := (s.consRewind q (e.start % 2 ^ 32)).2
      { s with sch := { s.sch with queues := s.sch.queues.map fun (y : Nat × SQueue) =>
        if y.1 = q then (y.1, { y.2 with cur := none }) else y } }
    | none => s) s

/-- A replay from SEQ a; one more than REPLAY_MAX takes the link down instead. -/
def State.replay (s : State) (g a : Nat) : State :=
  let x := s.xg g
  if s.fld (Adr.XCV_LINK g) 16 8 ≤ x.replays then
    ((s.setXg g { x with replays := 0 }).xEvt g 4).reportHw (24 + g) 4 (target 7 g) |>.xgRestart g
  else
    let s := s.takeBack g a
    ((s.modXg g fun x => { x with replays := x.replays + 1 }).xEvt g 3).bump (Adr.XCV_CNT_REPLAY g)

def State.ferryNakAt (s : State) (g a : Nat) : State := if s.ferryUp g then s.replay g a else s

def State.ferryTmo (s : State) (g : Nat) : State :=
  if !s.ferryUp g then s
  else match (s.xg g).retry with
    | e :: _ => s.replay g e.seq
    | [] => s

/-- The link is UP (R331 step 4): what the far end has accepted is acknowledged, and the rest is sent again. -/
def State.ferryUpNow (s : State) (g w rxSeq : Nat) : State :=
  let x := s.xg g
  let low := ((List.range 4).filter (hasLane x.lock)).take w
  let map := (List.range 4).map fun k => if low.contains k then x.map.getD k 15 else 15
  let s := s.setXg g { x with st := 6, w := w, map := map, agree := 0 }
  let s := s.xEvt g 0
  let s := if w < s.xgWidth g then s.xEvt g 2 else s
  let s := s.ferryAckTo g ((rxSeq + 65535) % 65536)
  let any := (s.xg g).retry ≠ []
  let s := s.takeBack g rxSeq
  let s := if any then ((s.modXg g fun x => { x with replays := x.replays + 1 }).xEvt g 3).bump (Adr.XCV_CNT_REPLAY g) else s
  s.creditAll g

/-- TRAIN blocks in HANDSHAKE: the width on which both ends agree (R331). -/
def State.ferryTrain (s : State) (g : Nat) (b : TrainBlk) : State :=
  let x := s.xg g
  if !s.ferryOn g || x.st ≠ 5 then s
  else
    let n := popcount (lanesAnd x.lock b.lanes)
    let w := (([4, 2, 1] : List Nat).find? fun w => w ≤ s.xgWidth g && w ≤ n).getD 0
    let s := s.emit (.ferryTrain g x.lock (0 < w) x.rxSeq)
    let agree := if !b.ready ∨ w = 0 then 0 else if x.agree ≠ 0 ∧ x.peer = w then x.agree + 1 else 1
    if 8 ≤ agree then s.ferryUpNow g w b.rxSeq else s.setXg g { x with peer := w, agree := agree }

/-! ### The back-channel (R338, R339) -/

/-- A message received in a CONTROL packet. -/
def State.bcReceive (s : State) (g : Nat) (m : List Byte) : State :=
  let type := (m.getD 0 0).toNat
  let arg := leNat ((m.drop 4).take 2)
  let kind := arg / 2 ^ 14
  let n := arg % 2 ^ 14
  let known := if type = 0x10 then
      (kind = 0 ∧ n < 4 ∧ s.flag (Adr.FCT_S_CTL n) 0) ∨ (kind = 1 ∧ s.cEn n)
    else 1 ≤ type ∧ type ≤ 4
  if m.length = 16 ∧ known then
    let s := iter (List.range 4) (fun i s => s.setRegN (Adr.XCV_BC_RX g i) (leNat ((m.drop (4 * i)).take 4))) s
    let s := (s.xEvt g 6).occur (0xD0 + g)
    if type = 0x10 ∧ s.flag (Adr.XCV_BC_CTL g) 0 then
      (if kind = 0 then s.modFs n fun x => { x with keyAsked := true } else s.modCx n fun x => { x with keyAsked := true })
    else s
  else (s.bump (Adr.XCV_CNT_BCBAD g)).xEvt g 7

/-! ### Received packets (R334, R337) -/

def pktSeq (p : FerryPkt) : Nat := (p.hdr.extractLsb' 0 16).toNat
def pktLen (p : FerryPkt) : Nat := (p.hdr.extractLsb' 16 15).toNat
def pktType (p : FerryPkt) : Nat := (p.hdr.extractLsb' 32 2).toNat
def pktCh (p : FerryPkt) : Nat := (p.hdr.extractLsb' 34 6).toNat
def pktFirst (p : FerryPkt) : Bool := p.hdr.getLsbD 40
def pktLast (p : FerryPkt) : Bool := p.hdr.getLsbD 41
def pktPoison (p : FerryPkt) : Bool := p.hdr.getLsbD 42

/-- The PKT block is valid, and the CRC over its bytes 1 to 6 and the payload is correct (R332). -/
def pktValid (p : FerryPkt) : Bool := 1 ≤ pktLen p && pktLen p ≤ 16384 && p.payload.length = pktLen p
def pktCrcOk (p : FerryPkt) : Bool := crc32c (leBytes 6 p.hdr.toNat ++ p.payload) = p.crc.toNat

/-- Poisons a queue's words from a position on, those a stalled producer holds included. -/
def State.poisonFrom (s : State) (q c : Nat) : State :=
  s.modQueue q fun x => { x with
    words := (x.words.zipIdx).map fun (w : QWord × Nat) => if c / 32 ≤ x.base + w.2 then { w.1 with poison := true } else w.1,
    backlog := x.backlog.map fun o => match o with
      | .bytes l _ => .bytes l true
      | o => o }

/-- An accepted DATA packet goes to its channel's queue; a queue packet that cannot take the lock at its start is held until its
last part has come. -/
def State.ferryData (s : State) (g : Nat) (p : FerryPkt) : State :=
  let ch := pktCh p
  let u := ceilDiv (pktLen p) 64
  if !s.rxEn g ch then s.bump (Adr.XCV_CNT_RXDROP g)
  else
    let q := s.rxQueue g ch
    let c := s.rxChan g ch
    let s := s.setRx g ch { c with got := c.got + u }
    let c := s.rxChan g ch
    let s := if pktFirst p then
        let s := match c.opn with
          | some o => if o.buf.isNone ∧ (s.qRefuse q).isNone then s.rewindTo q o.clasp else s
          | none => s
        if s.noQueue q then s.setRx g ch { c with opn := none }
        else
          let now := s.lockFree q (1 + g)
          let s := if now then (s.pktStart q [1 + g]).2 else s
          s.setRx g ch { c with opn := some ⟨if now then (s.queue q).tail else (s.queue q).pendEnd, leNat (p.payload.take 4),
            leNat ((p.payload.drop 4).take 4), 0, if now then none else some ([], false)⟩ }
      else s
    let c := s.rxChan g ch
    match c.opn with
    | none => (s.setRx g ch { c with grown := c.grown + u }).bump (Adr.XCV_CNT_RXDROP g)
    | some o =>
      let data := if pktFirst p then p.payload.drop 8 else p.payload
      let buf := o.buf.map fun b => (b.1 ++ data, b.2 || pktPoison p)
      let s := if data = [] ∨ buf.isSome then s else (s.enqueue q (1 + g) data (pktPoison p)).2
      let got := o.got + data.length
      let held := c.held ++ [(o.clasp + got, u)]
      if pktLast p then
        let bad := got % 2 ^ 32 ≠ o.len
        let s := if bad then s.bump (Adr.XCV_CNT_RXDROP g) else s
        let s := match buf with
          | some (l, p) => (s.sendPkt q (1 + g) o.tag l (p || bad)).2
          | none => ((if bad then s.poisonFrom q o.clasp else s).eop q (1 + g) o.tag .none none).2
        s.setRx g ch { c with opn := none, held := held }
      else s.setRx g ch { c with opn := some { o with got := got, buf := buf }, held := held }

/-- PKT: a Ferry packet arrives. -/
def State.ferryPkt (s : State) (g : Nat) (p : FerryPkt) : State :=
  let x := s.xg g
  if !s.ferryUp g then s
  else
    let ch := pktCh p
    let u := ceilDiv (pktLen p) 64
    let c := s.rxChan g ch
    let credit := pktType p ≠ 0 || !s.rxEn g ch || decide (c.got + u ≤ s.fld (Adr.XCV_RXCH g ch) 16 16 + c.told)
    let good := pktValid p && pktCrcOk p
    if good ∧ sdiff 16 (pktSeq p) x.rxSeq < 0 then s.emit (.ferryAck g ((x.rxSeq + 65535) % 65536))
    else if good ∧ pktSeq p = x.rxSeq ∧ pktType p < 2 ∧ credit then
      let s := (s.setXg g { x with rxSeq := (x.rxSeq + 1) % 65536 }).emit (.ferryAck g (pktSeq p))
      let s := if pktType p = 1 then s.bcReceive g p.payload else s.ferryData g p
      s.creditScan
    else
      let s := (s.bump (Adr.XCV_CNT_CRCERR g)).xEvt g 5
      let quiet := x.nak.any fun n => n.1 = x.rxSeq && s.clk.now < n.2 + 50000
      if quiet then s
      else (s.modXg g fun y => { y with nak := some (x.rxSeq, s.clk.now) }).emit (.ferryNak g x.rxSeq)

/-- CREDIT: the far end's limit of a channel. -/
def State.ferryLimit (s : State) (g ch limit : Nat) : State :=
  if s.ferryUp g && ch < 64 then s.setTx g ch { s.txChan g ch with limit := limit % 2 ^ 24 } else s

/-- XCV_STAT and XCV_TX_SEQ. -/
def State.xcvStat (s : State) (g : Nat) : Nat :=
  let x := s.xg g
  x.st + 256 * x.lock + (if x.st = 6 then 4096 * x.w else 0)

def State.xcvTxSeq (s : State) (g : Nat) : Nat :=
  let x := s.xg g
  x.txSeq + 65536 * ((x.retry.head?.map (·.seq)).getD x.txSeq)

/-! ### Ethernet ports (R341, R342) -/

/-- Port e of 8 is port e mod 2 of group e / 2. -/
def State.ethOn (s : State) (e : Nat) : Bool :=
  e / 2 < s.nXcv && s.flag (Adr.XCV_CTL (e / 2)) 0 && s.flag (Adr.XCV_CTL (e / 2)) 1 &&
    s.flag (Adr.XCV_E_CTL (e / 2) (e % 2)) 0 && s.domUp (17 + e / 2)

def State.ethUp (s : State) (e : Nat) : Bool := s.ethOn e && s.flag (Adr.XCV_E_STAT (e / 2) (e % 2)) 0

def State.ethMtu (s : State) (e : Nat) : Nat := s.fld (Adr.XCV_E_CTL (e / 2) (e % 2)) 16 14

def State.ethSetUp (s : State) (e : Nat) : State :=
  if s.ethOn e then
    s.setRegN (Adr.XCV_E_STAT (e / 2) (e % 2)) (3 + 4 * b2n (s.flag (Adr.XCV_E_CTL (e / 2) (e % 2)) 2))
  else s

def State.ethSetDown (s : State) (e : Nat) (lock fec lf rf : Bool) : State :=
  if s.ethOn e then
    let s := if s.ethUp e then s.xEvt (e / 2) 8 else s
    s.setRegN (Adr.XCV_E_STAT (e / 2) (e % 2)) (2 * b2n lock + 4 * b2n fec + 8 * b2n lf + 16 * b2n rf)
  else s

/-- The port's MAC address, byte 0 first. -/
def State.ethMac (s : State) (e : Nat) : List Byte :=
  leBytes 4 (s.reg (Adr.XCV_E_MAC_LO (e / 2) (e % 2))).toNat ++ leBytes 2 (s.fld (Adr.XCV_E_MAC_HI (e / 2) (e % 2)) 0 16)

/-- The addresses that the port accepts beside its own. -/
def ethShared : List (List Byte) :=
  [[0xFF, 0xFF, 0xFF, 0xFF, 0xFF, 0xFF], [0x01, 0x1B, 0x19, 0, 0, 0], [0x01, 0x80, 0xC2, 0, 0, 0x0E],
    [0x01, 0, 0x5E, 0, 0x01, 0x81]]

/-- EtherType and what follows it, after an 802.1Q tag if there is one. -/
def ethBody (l : List Byte) : Nat × List Byte :=
  if beNat ((l.drop 12).take 2) = 0x8100 then (beNat ((l.drop 16).take 2), l.drop 18) else (beNat ((l.drop 12).take 2), l.drop 14)

/-- Destination address, destination port and payload of an unfragmented IPv4 UDP datagram. -/
def udpOf (l : List Byte) : Option (Nat × Nat × List Byte) :=
  let b := ethBody l
  let ip := b.2
  let ihl := 4 * ((ip.getD 0 0).toNat % 16)
  let u := ip.drop ihl
  if b.1 = 0x0800 ∧ (ip.getD 0 0).toNat / 16 = 4 ∧ 20 ≤ ihl ∧ beNat ((ip.drop 6).take 2) % 2 ^ 14 = 0 ∧
      (ip.getD 9 0).toNat = 17 ∧ 8 ≤ u.length then
    some (beNat ((ip.drop 16).take 4), beNat ((u.drop 2).take 2), (u.drop 8).take (beNat ((u.drop 4).take 2) - 8))
  else none

/-- The frame holds a PTP message of the configured profile on the PTP port (R347): it goes to the time unit, whose messages
are commands of their own. -/
def State.isPtp (s : State) (e : Nat) (l : List Byte) : Bool :=
  s.fld Adr.PTP_CTL 0 2 = 0 && s.fld Adr.PTP_CTL 3 3 = e &&
    (if s.flag Adr.PTP_CTL 2 then (ethBody l).1 = 0x88F7
     else match udpOf l with
       | some (_, port, _) => port = 319 || port = 320
       | none => false)

/-- A frame's bytes into a queue as one packet. -/
def State.ethPut (s : State) (e q : Nat) (l : List Byte) : State :=
  let g := e / 2
  let x := s.queue q
  let full := s.qLimit q ≠ 0 && s.qLimit q < x.depth + ceilDiv l.length 32
  let r := s.sendPkt q (1 + g) 0 l
  if l = [] ∨ full ∨ r.1 ≠ Code.done then (s.bump (Adr.XCV_E_CNT_RXDROP g (e % 2))).xEvt g 10 else r.2

/-- ETH_FRAME: a frame arrives at port e. -/
def State.ethRx (s : State) (e : Nat) (f : EthFrame) : State :=
  let g := e / 2
  let i := e % 2
  if !s.ethUp e then s
  else
    let s := (s.bumpFld (Adr.XCV_E_CNT_FEC g i) 0 16 f.corrected).bumpFld (Adr.XCV_E_CNT_FEC g i) 16 16 f.uncorr
    let s := if 0 < f.uncorr then (s.xEvt g 9).reportHw (24 + g) 9 (target 7 g) else s
    let l := f.bytes
    let dst := l.take 6
    if !f.fcsOk then s.bump (Adr.XCV_E_CNT_FCSERR g i)
    else if (ethBody l).1 = 0x8808 then s.bump (Adr.XCV_E_CNT_PAUSE g i)
    else if s.ethMtu e + 18 < l.length + 4 ∨ !(dst = s.ethMac e ∨ ethShared.contains dst) then s
    else
      let s := s.bump (Adr.XCV_E_CNT_RXF g i)
      if s.isPtp e l then s
      else
        let hit := match udpOf l with
          | none => none
          | some (ip, port, data) =>
            if ip ≠ (s.reg (Adr.XCV_E_IP g i)).toNat then none
            else ((List.range 8).find? fun k =>
              s.flag (Adr.XCV_E_FILT g i k) 31 && s.fld (Adr.XCV_E_FILT g i k) 0 16 = port).map fun k =>
                (s.fld (Adr.XCV_E_FILT g i k) 16 12, data)
        match hit with
        | some (q, data) => s.ethPut e q data
        | none =>
          let q := s.fld (Adr.XCV_E_RXQ g i) 0 12
          if q = 0 then s.bump (Adr.XCV_E_CNT_RXDROP g i) else s.ethPut e q l

end Sys2Proof.Machine
end

