-- ==== Sys2Proof/Machine/Egress.lean ====
section
/-! DEFINITION. The egress scheduler (R299 to R326): backlog and tags, shapers and the timing wheel, native windows and gate lists,
the choice of the next unit, and what Crossing makes of a unit: Ferry packets (R332, R333, R335) and frames from the header
templates (R343 to R345). Readings are log 21. -/

namespace Sys2Proof.Machine

/-! ### PTP time -/

/-- PTP time in ns at a local instant (R346). -/
def State.ptpAt (s : State) (t : Nat) : Nat :=
  let d : Int := (t : Int) - s.ptp.at_
  ((s.ptp.base : Int) + d + d * s.ptp.freq / 65536000000).toNat

def State.ptpNow (s : State) : Nat := s.ptpAt s.clk.now

/-! ### Ports and queues -/

def State.sp (s : State) (p : Nat) : SPort := tget SPort.fresh s.sch.ports p

def State.setSp (s : State) (p : Nat) (x : SPort) : State :=
  { s with sch := { s.sch with ports := tset SPort.fresh s.sch.ports p x } }

def State.modSp (s : State) (p : Nat) (f : SPort → SPort) : State := s.setSp p (f (s.sp p))

def State.sq (s : State) (q : Nat) : SQueue := tget SQueue.fresh s.sch.queues q

def State.setSq (s : State) (q : Nat) (x : SQueue) : State :=
  { s with sch := { s.sch with queues := tset SQueue.fresh s.sch.queues q x } }

def State.modSq (s : State) (q : Nat) (f : SQueue → SQueue) : State := s.setSq q (f (s.sq q))

/-- The port that serves a queue (R300). -/
def State.portOf (s : State) (q : Nat) : Option Nat :=
  if s.qEnabled q && s.qCons q = 1 then some (s.qConsIdx q) else none

/-- The port is a Ferry link. -/
def State.isFerry (s : State) (p : Nat) : Bool := p % 2 = 0 && s.flag (Adr.XCV_CTL (p / 2)) 0 && !s.flag (Adr.XCV_CTL (p / 2)) 1

def State.isEth (s : State) (p : Nat) : Bool :=
  s.flag (Adr.XCV_CTL (p / 2)) 0 && s.flag (Adr.XCV_CTL (p / 2)) 1 && s.flag (Adr.XCV_E_CTL (p / 2) (p % 2)) 0

/-- Queues with content that a port serves, rising. -/
def State.servedBy (s : State) (p : Nat) : List Nat :=
  (((s.qf.map (·.1)) ++ (s.sch.queues.map (·.1))).filter fun q => s.portOf q = some p).eraseDups

/-- Lanes of a group's width: agreed while UP, configured before. -/
def State.xgLanes (s : State) (g : Nat) : Nat := if (s.xg g).st = 6 then (s.xg g).w else s.xgWidth g

/-- The line rate in 1/100,000 Gbaud (R350). -/
def State.xgBaud (s : State) (g : Nat) : Nat :=
  ([1250000, 1600000, 2578125, 2812500, 3200000] : List Nat).getD (s.fld (Adr.XCV_CTL g) 2 3) 1250000

/-- SCH_P_BYTE_T (R340). -/
def State.byteT (s : State) (p : Nat) : Nat :=
  let g := p / 2
  if s.isFerry p then ceilDiv (66 * 65536 * 4096 * 100000) (8 * max 1 (s.xgLanes g) * s.xgBaud g * 4095)
  else if s.isEth p then (if s.flag (Adr.XCV_E_CTL g (p % 2)) 1 then 20972 else 52429) else 0

/-- Wire bytes of a Ferry packet with n payload bytes (R340). -/
def State.ferryLen (s : State) (g n : Nat) : Nat :=
  let w := max 1 (s.xgLanes g)
  8 * w * (1 + ceilDiv (ceilDiv (n + 4) 8) w)

def State.maxPkt (s : State) (g : Nat) : Nat := s.fld (Adr.XCV_LINK g) 0 15

/-- SCH_P_MAXUNIT (R340). -/
def State.maxUnit (s : State) (p : Nat) : Nat :=
  if s.isFerry p then s.ferryLen (p / 2) (s.maxPkt (p / 2)) else if s.isEth p then s.ethMtu p + 42 else 0

/-! ### Header templates (R343 to R345) -/

def State.tplByte (s : State) (g t k : Nat) : Nat := bits (s.inForce (Adr.XCV_TPL g t (k / 4))) (8 * (k % 4)) 8

def State.tplBytes (s : State) (g t k n : Nat) : List Byte := (List.range' k n).map fun i => BitVec.ofNat 8 (s.tplByte g t i)

def State.tplNum (s : State) (g t k n : Nat) : Nat := beNat (s.tplBytes g t k n)

def State.tplKind (s : State) (g t : Nat) : Nat := s.tplByte g t 29 / 4 % 4
def State.tplVlan (s : State) (g t : Nat) : Bool := s.tplByte g t 29 % 2 = 1

/-- The transmit channel or template of a queue on a port. -/
def State.chanOf (s : State) (p q : Nat) : Option Nat :=
  let g := p / 2
  (List.range 64).find? fun c => s.flag (Adr.XCV_TXCH g c) 15 && s.fld (Adr.XCV_TXCH g c) 0 12 = q &&
    (s.isFerry p || s.fld (Adr.XCV_TXCH g c) 16 1 = p % 2)

/-- Ones' complement sum of 16-bit words, folded. -/
def ocSum : Nat → List Byte → Nat
  | 0, _ => 0
  | _, [] => 0
  | n + 1, l => beNat ((l ++ [0]).take 2) + ocSum n (l.drop 2)

def fold16 : Nat → Nat → Nat
  | 0, x => x
  | n + 1, x => if x < 65536 then x else fold16 n (x % 65536 + x / 65536)

def ocCheck (l : List Byte) : Nat := 65535 - fold16 8 (ocSum (l.length / 2 + 1) l)

/-- Splits bytes into pieces of at most k. -/
def pieces (k : Nat) : Nat → List Byte → List (List Byte)
  | 0, _ => []
  | _, [] => []
  | n + 1, l => l.take k :: pieces k n (l.drop k)

/-- PTP time in ns at a tick count: its latch, or the oldest latch less the nominal periods between (R343). -/
def State.tickTime (s : State) (c : Nat) : Option Nat :=
  match s.ptp.latches.find? (·.1 = c), s.ptp.latches.getLast? with
  | some x, _ => some x.2
  | none, some o =>
    let d := (o.1 + 2 ^ 48 - c % 2 ^ 48) % 2 ^ 48
    some (o.2 - d * 1000000000 * s.fld Adr.GLB_TICK_RATE 16 16 / max 1 (s.fld Adr.GLB_TICK_RATE 0 16))
  | none, none => none

/-- The RTP payloads of a NAL unit (R344): a single NAL unit packet, or fragmentation units. -/
def rtpPayloads (p : Nat) (nal : List Byte) : List (List Byte) :=
  if nal.length ≤ p then [nal]
  else
    let type := (nal.headD 0).toNat / 2 % 64
    let hdr : List Byte := [BitVec.ofNat 8 ((nal.headD 0).toNat / 128 * 128 + 49 * 2 + (nal.headD 0).toNat % 2), nal.getD 1 0]
    let parts := pieces (p - 3) nal.length (nal.drop 2)
    (parts.zipIdx).map fun x =>
      hdr ++ [BitVec.ofNat 8 (128 * b2n (x.2 = 0) + 64 * b2n (x.2 + 1 = parts.length) + type)] ++ x.1

/-- The UDP payloads of a UDP template without the packet number (R345). -/
def udpPayloads (mtu tag : Nat) (l : List Byte) : List (List Byte) :=
  let parts := pieces (mtu - 40) l.length l
  (parts.zipIdx).map fun x =>
    beBytes 4 (x.2 * (mtu - 40) + 2 ^ 31 * b2n (x.2 + 1 = parts.length)) ++ beBytes 4 tag ++ x.1

/-- Payload sizes on the wire of a queue packet's datagrams: the UDP payload of each, RTP header or prefix included. -/
def State.ethSizes (s : State) (p t : Nat) (l : List Byte) : List Nat :=
  let mtu := s.ethMtu p
  if s.tplKind (p / 2) t = 0 then (rtpPayloads (mtu - 40) (l.drop 16)).map fun x => 12 + x.length
  else (udpPayloads mtu 0 l).map fun x => 4 + x.length

/-- Wire bytes of a frame with n bytes of UDP payload (R340). -/
def State.ethLen (s : State) (g t n : Nat) : Nat := 28 + n + (if s.tplVlan g t then 42 else 38)

/-- A frame from a template around a UDP payload. -/
def State.ethFrame (s : State) (g t : Nat) (data : List Byte) : List Byte :=
  let b := s.tplBytes g t
  let total := 28 + data.length
  let ip0 : List Byte := [0x45] ++ b 14 1 ++ beBytes 2 total ++ beBytes 2 ((tget ⟨0, 0, 0⟩ (s.xg g).tpl t).ipId) ++ [0x40, 0] ++
    b 15 1 ++ [17]
  let ip := ip0 ++ beBytes 2 (ocCheck (ip0 ++ [0, 0] ++ b 16 8)) ++ b 16 8
  let udp0 := b 24 4 ++ beBytes 2 (8 + data.length)
  let sum := ocCheck (b 16 8 ++ [0, 17] ++ beBytes 2 (8 + data.length) ++ udp0 ++ [0, 0] ++ data)
  let sum := if s.tplByte g t 29 / 2 % 2 = 0 then 0 else if sum = 0 then 65535 else sum
  b 0 12 ++ (if s.tplVlan g t then [0x81, 0x00] ++ b 12 2 else []) ++ [0x08, 0x00] ++ ip ++ udp0 ++ beBytes 2 sum ++ data

/-! ### The next unit of a queue (R301, R333) -/

/-- The packet a queue sends from: the one in progress, or the oldest with an untaken notice. -/
def State.sendFrom (s : State) (q : Nat) : Option (Pkt × Nat × Nat) :=
  let x := s.queue q
  match (s.sq q).cur with
  | some (st, sent, units) => (x.pkts.find? fun p => p.start = st && p.taken).map fun p => (p, sent, units)
  | none => x.oldest.map fun p => (p, 0, 0)

/-- The bytes that a port sends for a packet: its words', or those of the buffer that a reference packet hands over (R261). -/
def State.pktBytes (s : State) (q : Nat) (p : Pkt) : List Byte :=
  match p.handle with
  | some (h, _) => s.refBytes h (s.wordNow q (p.start / 32)).data
  | none => ((List.range' (p.start / 32) ((p.stop - p.start) / 32)).flatMap fun i => (s.wordNow q i).data).take p.len

/-- How many bytes that is. -/
def State.sentLen (s : State) (q : Nat) (p : Pkt) : Nat := if p.handle.isSome then (s.pktBytes q p).length else p.len

/-- The unit that a queue would send next on a port: its wire bytes L, the payload or datagram size, and whether it is the
packet's last. -/
structure UnitOf where
  pkt : Pkt
  sent : Nat
  n : Nat
  size : Nat
  len : Nat
  last : Bool
  deriving DecidableEq, Repr

def State.nextUnit (s : State) (p q : Nat) : Option UnitOf :=
  match s.sendFrom q, s.chanOf p q with
  | some (k, sent, n), some c =>
    if s.isFerry p then
      let part := min (s.maxPkt (p / 2)) (s.sentLen q k + 8 - sent)
      some ⟨k, sent, n, part, s.ferryLen (p / 2) part, s.sentLen q k + 8 ≤ sent + part⟩
    else
      let sizes := s.ethSizes p c (s.pktBytes q k)
      let m := sizes.getD n 0
      some ⟨k, sent, n, m, s.ethLen (p / 2) c m, sizes.length ≤ n + 1⟩
  | _, _ => none

def State.wireTime (s : State) (p len : Nat) : Nat := ceilDiv (len * s.byteT p) 65536

/-- The wire time of a packet's longest unit. -/
def State.longest (s : State) (p q : Nat) (k : Pkt) : Nat :=
  if s.isFerry p then s.wireTime p (s.ferryLen (p / 2) (min (s.maxPkt (p / 2)) (s.sentLen q k + 8)))
  else match s.chanOf p q with
    | some c => s.wireTime p (((s.ethSizes p c (s.pktBytes q k)).map (s.ethLen (p / 2) c)).foldl max 0)
    | none => 0

/-! ### Shapers (R308 to R310) -/

def State.shaped (s : State) (q : Nat) : Bool := bit (s.inForce (Adr.SCH_Q_RATE q)) 31
def State.rate (s : State) (q : Nat) : Nat := bits (s.inForce (Adr.SCH_Q_RATE q)) 0 28
def State.burst (s : State) (q : Nat) : Nat := bits (s.inForce (Adr.SCH_Q_BURST q)) 0 24

/-- The balance at an instant, in 1/65,536 byte. -/
def State.balanceAt (s : State) (q t : Nat) : Int :=
  let x := s.sq q
  if s.shaped q ∧ s.rate q ≠ 0 then
    min ((s.burst q : Int) * 65536) (x.bal + ((t - x.balAt) * s.rate q * 65536 / 8000000 : Nat))
  else x.bal

/-- Rebases the balance. -/
def State.rebase (s : State) (q : Nat) : State :=
  let b := s.balanceAt q s.clk.now
  s.modSq q fun x => { x with bal := b, balAt := s.clk.now }

/-- The slot boundary at or after an instant, within the wheel's span from now (R309). -/
def slotAt (now t : Nat) : Nat := min (ceilDiv t 256) (now / 256 + 4095) * 256

/-- Debt in 1/65,536 byte as its time to repay in ns, rounded up. -/
def repay (debt : Int) (rate : Nat) : Nat := ceilDiv (debt.toNat * 8000000) (65536 * max 1 rate)

/-- A queue in debt waits on the wheel. -/
def State.wheelIn (s : State) (q : Nat) : State :=
  let s := s.rebase q
  let b := (s.sq q).bal
  if s.shaped q ∧ s.rate q ≠ 0 ∧ b < 0 then
    s.modSq q fun x => { x with wheel := some (slotAt s.clk.now (s.clk.now + repay (-b) (s.rate q))) }
  else s.modSq q fun x => { x with wheel := none }

/-- Whether the shaper permits at an instant (R302, R308). -/
def State.shaperOk (s : State) (q t : Nat) : Bool :=
  !s.shaped q || (s.rate q ≠ 0 && match (s.sq q).wheel with
    | some w => w ≤ t && 0 ≤ s.balanceAt q t
    | none => 0 ≤ s.balanceAt q t)

/-- A change of RATE, BURST or SHAPE_EN at a tick (R310): `was` is the balance in the old values. -/
def State.reshape (s : State) (q : Nat) (was : Int) : State :=
  let s := s.modSq q fun x => { x with bal := was, balAt := s.clk.now, wheel := none }
  let s := s.rebase q
  let b := (s.sq q).bal
  if s.shaped q ∧ s.rate q ≠ 0 ∧ b < 0 then
    let first := (s.clk.now / 256 + 1) * 256
    s.modSq q fun x => { x with wheel := some (max first (slotAt s.clk.now (s.clk.now + repay (-b) (s.rate q)))) }
  else s

/-- SCH_Q_BAL. -/
def State.balReg (s : State) (q : Nat) : Nat := toBits 32 (s.balanceAt q s.clk.now / 65536)

/-! ### Gates (R312 to R316) -/

def State.compat (s : State) (p : Nat) : Bool := s.flag (Adr.SCH_P_CTL p) 1

/-- Windows in use of class 1 or 2: start and end in ns after the tick. -/
def State.windows (s : State) (p cls : Nat) : List (Nat × Nat) :=
  (List.range 4).filterMap fun w =>
    let n := s.fld (Adr.SCH_P_WIN_LEN p (cls - 1) w) 0 24
    let a := s.fld (Adr.SCH_P_WIN_START p (cls - 1) w) 0 24
    if n = 0 then none else some (64 * a, 64 * (a + n))

/-- Entries of a bank as (gate bits, ns), cut at CYCLE or held to its end (R315). -/
def State.gateList (s : State) (p bank len cycle : Nat) : List (Nat × Nat) :=
  let raw := (List.range len).map fun e => (s.fld (Adr.SCH_P_CL_GATES p bank e) 0 3, s.fld (Adr.SCH_P_CL_IVL p bank e) 0 30)
  let r := raw.foldl (fun (a : List (Nat × Nat) × Nat) x =>
    if cycle ≤ a.2 then a else (a.1 ++ [(x.1, min x.2 (cycle - a.2))], a.2 + x.2)) ([], 0)
  match r.1.getLast? with
  | some x => if r.2 < cycle then r.1.dropLast ++ [(x.1, x.2 + (cycle - r.2))] else r.1
  | none => []

def gateOpen (bits_ cls : Nat) : Bool := bits_ / 2 ^ cls % 2 = 1

/-- The longest run of consecutive time a class is open, across cycle boundaries; none where it never closes. -/
def longestOpen (l : List (Nat × Nat)) (cls : Nat) : Option Nat :=
  if l.all fun e => gateOpen e.1 cls then none
  else some ((l ++ l).foldl (fun (a : Nat × Nat) e =>
    if gateOpen e.1 cls then (a.1 + e.2, max a.2 (a.1 + e.2)) else (0, a.2)) (0, 0)).2

/-- The list from an offset on: the rest of the running entry and what follows. -/
def gateFrom : List (Nat × Nat) → Nat → List (Nat × Nat)
  | [], _ => []
  | e :: t, o => if o < e.2 then (e.1, e.2 - o) :: t else gateFrom t (o - e.2)

/-- Time that a class stays open along a list, up to a need. -/
def openFor (cls : Nat) : List (Nat × Nat) → Nat → Nat
  | [], _ => 0
  | e :: t, need => if gateOpen e.1 cls then (if need ≤ e.2 then need else e.2 + openFor cls t (need - e.2)) else 0

def State.operBank (s : State) (p : Nat) : Nat := s.fld (Adr.SCH_P_CL_CTL p) 11 1

def State.operList (s : State) (p : Nat) : List (Nat × Nat) :=
  s.gateList p (s.operBank p) (s.sp p).operLen (s.sp p).operCycle

def State.maxFt (s : State) (p : Nat) : Nat := s.fld (Adr.SCH_P_MAXFT p) 0 24

/-- The class's gate is open at PTP time x and stays open for MAXFT; a pending swap closes every gate (R316). -/
def State.listPermits (s : State) (p cls x : Nat) : Bool :=
  let l := s.operList p
  let cyc := (s.sp p).operCycle
  let need := s.maxFt p
  let swapOk := match (s.sp p).swap with
    | some t => x + need ≤ t
    | none => true
  if cyc = 0 ∨ l = [] then true
  else
    let o := (x + cyc - (s.sp p).operBase % cyc) % cyc
    let run := gateFrom l o ++ (List.range (need / cyc + 1)).flatMap fun _ => l
    let now := (gateFrom l o).head?.any fun e => gateOpen e.1 cls
    swapOk && now && need ≤ openFor cls run need

/-- The class gate permits a unit of a wire time at local instant t (R312 to R316). -/
def State.gateOk (s : State) (p cls t wire : Nat) : Bool :=
  if s.compat p then s.listPermits p cls (s.ptpAt t)
  else if cls = 0 then true
  else
    let w := s.windows p cls
    let o := t - s.clk.lastTick.getD 0
    w = [] || w.any fun x => x.1 ≤ o && o < x.2 && o + wire ≤ x.2

/-- A native window is open but the unit does not fit in it. -/
def State.guarded (s : State) (p cls t wire : Nat) : Bool :=
  !s.compat p && cls ≠ 0 && !s.gateOk p cls t wire &&
    (s.windows p cls).any fun x => x.1 ≤ t - s.clk.lastTick.getD 0 && t - s.clk.lastTick.getD 0 < x.2

/-! ### Eligibility (R302) -/

/-- The link is up, the retry list has room, and the domain runs. -/
def State.portReady (s : State) (p : Nat) : Bool :=
  s.flag (Adr.SCH_P_CTL p) 0 && s.domRuns (17 + p / 2) && s.domRuns 2 &&
    (if s.isFerry p then s.ferryUp (p / 2) && (s.xg (p / 2)).retry.length < 256 else s.ethUp p)

/-- Credit for a Ferry packet (R336). -/
def State.creditOk (s : State) (p q size : Nat) : Bool :=
  if s.isFerry p then match s.chanOf p q with
    | none => false
    | some c =>
      let x := s.txChan (p / 2) c
      0 ≤ sdiff 24 x.limit ((x.used + ceilDiv size 64) % 2 ^ 24)
  else true

def State.eligible (s : State) (p q t : Nat) : Bool :=
  match s.nextUnit p q with
  | none => false
  | some u => s.portReady p && s.shaperOk q t && s.gateOk p (s.qClass q) t (s.wireTime p u.len) && s.creditOk p q u.size

/-- Whether a queue has an untaken notice or a packet not sent in full. -/
def State.backlogged (s : State) (q : Nat) : Bool := (s.sendFrom q).isSome

/-- The later of two 48-bit tags (R304). -/
def tagMax (a b : Nat) : Nat := if sdiff 48 a b < 0 then b else a

/-- A queue that has become backlogged wakes at its class's virtual time; one that has emptied leaves its class (R305, R306). -/
def State.schSync (s : State) (q : Nat) : State :=
  match s.portOf q with
  | none => s
  | some p =>
    let x := s.sq q
    let k := s.qClass q
    if s.backlogged q = x.back then s
    else if x.back then
      let s := s.setSq q { x with back := false, cur := none, since := none }
      if (s.servedBy p).any fun r => (s.sq r).back && s.qClass r = k then s
      else s.modSp p fun y => { y with v := y.v.set k (y.fmax.getD k 0) }
    else
      let s := s.setSq q { x with back := true, s := tagMax ((s.sp p).v.getD k 0) x.f }
      if s.eligible p q s.clk.now then s.modSq q fun y => { y with since := some s.clk.now } else s

/-- The queue of the lowest class, then the least start tag, then the lowest ID, among eligible ones (R303). -/
def State.choose (s : State) (p t : Nat) : Option Nat :=
  ((s.servedBy p).filter fun q => s.eligible p q t).foldl (fun (b : Option Nat) q => match b with
    | none => some q
    | some r =>
      if s.qClass q < s.qClass r then some q
      else if s.qClass r < s.qClass q then b
      else if sdiff 48 (s.sq q).s (s.sq r).s < 0 then some q
      else if (s.sq q).s = (s.sq r).s ∧ q < r then some q else b) none

/-! ### Sending a unit (R304, R308, R332 to R335) -/

/-- A port passes over a packet that it does not send, and releases it (R318). -/
def State.passOver (s : State) (q c : Nat) : State :=
  let x := s.queue q
  ((s.setQueue q { x with
    read := max x.read c, deq := x.deq + x.bytesIn x.read c, headEnd := max x.headEnd (c / 32),
    midEnd := max x.midEnd (c / 32) }).pull q).releaseTo q c

/-- A port reads a packet word by word from the head store, each word with its parity check, on to the one that holds byte `e`
(R226, R236); a word that the next unit needs too stays at READ. The word of a reference packet is read once. -/
def State.readOn (s : State) (q : Nat) (k : Pkt) (e : Nat) (last : Bool) : State :=
  let stop := if last || k.handle.isSome then k.stop else (k.start + e) / 32 * 32
  let s := s.readFrom q k.start
  let s := (s.readWords q (stop / 32 - (s.queue q).read / 32)).2
  if stop < k.stop && e % 32 ≠ 0 then
    let s := s.headFill q
    s.checkWord q ((s.queue q).read / 32)
  else s

/-- A port has sent the whole of a packet that it releases: the buffer of a reference packet is freed as its Crossing group's
requester (R261), and the packet is released (R234). -/
def State.sentWhole (s : State) (q : Nat) (k : Pkt) : State := (s.freeSent q k).releaseTo q k.stop

/-- A Ferry DATA packet of a queue packet. -/
def State.sendFerry (s : State) (p q : Nat) (u : UnitOf) : State :=
  let g := p / 2
  let ch := (s.chanOf p q).getD 0
  let k := u.pkt
  let s := s.readOn q k (u.sent + u.size - 8) u.last
  let whole := leBytes 4 k.tag ++ leBytes 4 (s.sentLen q k) ++ s.pktBytes q k
  let payload := (whole.drop u.sent).take u.size
  let x := s.queue q
  let lo := (k.start + (u.sent - 8)) / 32
  let hi := ceilDiv (k.start + (u.sent + u.size - 8)) 32
  let bad := if k.handle.isSome then x.pktPoison k else ((x.words.drop (lo - x.base)).take (hi - lo)).any (·.poison)
  let y := s.xg g
  let units := ceilDiv u.size 64
  let s := s.emit (.ferry g 0 y.txSeq ch (u.sent = 0) u.last bad payload)
  let s := s.setXg g { y with
    txSeq := (y.txSeq + 1) % 65536,
    retry := y.retry ++ [⟨y.txSeq, none, q, k.start, k.stop, u.last, ch, units⟩] }
  let c := s.txChan g ch
  let s := s.setTx g ch { c with used := (c.used + units) % 2 ^ 24 }
  if u.last && s.qAutoRel q then s.sentWhole q k else s.pumpAll q

/-- A waiting CONTROL message, ahead of any DATA packet (R338). -/
def State.sendCtl (s : State) (g : Nat) : State :=
  let y := s.xg g
  match y.ctl with
  | [] => s
  | m :: t =>
    (s.emit (.ferry g 1 y.txSeq 0 true true false m)).setXg g { y with
      ctl := t, txSeq := (y.txSeq + 1) % 65536, retry := y.retry ++ [⟨y.txSeq, some m, 0, 0, 0, true, 0, 0⟩] }

def State.modTpl (s : State) (g t : Nat) (f : Tpl → Tpl) : State :=
  s.modXg g fun x => { x with tpl := tset ⟨0, 0, 0⟩ x.tpl t (f (tget ⟨0, 0, 0⟩ x.tpl t)) }

/-- The byte of a queue packet that frame n of a template ends before: a fragment of a NAL unit behind the 16-byte unit header
(R344), or a part of the packet (R345). -/
def State.frameEnd (s : State) (p t n : Nat) : Nat :=
  if s.tplKind (p / 2) t = 0 then 18 + (n + 1) * (s.ethMtu p - 43) else (n + 1) * (s.ethMtu p - 40)

/-- One frame of an Ethernet port; the queue is released at the packet's end (log 2101). -/
def State.sendEth (s : State) (p q : Nat) (u : UnitOf) : State :=
  let g := p / 2
  let t := (s.chanOf p q).getD 0
  let k := u.pkt
  let s := s.readOn q k (s.frameEnd p t u.n) u.last
  let l := s.pktBytes q k
  let y := tget ⟨0, 0, 0⟩ (s.xg g).tpl t
  let r := if s.tplKind g t = 0 then
      let tick := leNat ((l.drop 8).take 6)
      let (ns, s) := match s.tickTime tick with
        | some n => (90000 * n / 1000000000, s)
        | none => ((s.freshWord).1.toNat, (s.freshWord).2)
      let auLast := (l.getD 3 0).toNat / 2 % 2 = 1
      let body := (rtpPayloads (s.ethMtu p - 40) (l.drop 16)).getD u.n []
      let rtp := [0x80, BitVec.ofNat 8 (128 * b2n (u.last && auLast) + s.tplByte g t 28 % 128)] ++
        beBytes 2 ((s.tplNum g t 30 2 + y.rtp) % 65536) ++ beBytes 4 (ns % 2 ^ 32) ++ s.tplBytes g t 32 4
      (rtp ++ body, s.modTpl g t fun x => { x with rtp := x.rtp + 1 })
    else
      (beBytes 4 (y.pkts % 2 ^ 32) ++ (udpPayloads (s.ethMtu p) k.tag l).getD u.n [],
        if u.last then s.modTpl g t fun x => { x with pkts := x.pkts + 1 } else s)
  let s := r.2.emit (.eth p (s.ethFrame g t r.1))
  let s := (s.modTpl g t fun x => { x with ipId := (x.ipId + 1) % 65536 }).bump (Adr.XCV_E_CNT_TXF g (p % 2))
  if u.last then s.sentWhole q k else s

/-- Delay of a queue: the age of its oldest packet not sent in full (R319). -/
def State.qDelay (s : State) (q t : Nat) : Nat :=
  match s.sendFrom q with
  | some (k, _, _) => t - k.at_
  | none => 0

def State.hwmDelay (s : State) (q t : Nat) : State :=
  let d := sat 0xFFFFFFFF (s.qDelay q t)
  if (s.reg (Adr.SCH_Q_HWM_DLY q)).toNat < d then s.setRegN (Adr.SCH_Q_HWM_DLY q) d else s

/-- An event of the scheduler (R323). -/
def State.schEvt (s : State) (n q p code : Nat) : State :=
  (s.raise Adr.SCH_EVT n).setRegN Adr.SCH_EVT_SRC (q % 4096 + 4096 * (p % 8) + 65536 * code)

/-! ### Notices and packets that are too long (R318) -/

/-- The packet whose notice has just been issued cannot go in any window of its class. -/
def State.tooLong (s : State) (p q : Nat) (k : Pkt) : Bool :=
  let cls := s.qClass q
  if s.compat p then
    let l := s.operList p
    l ≠ [] && (longestOpen l cls).any fun n => n < s.maxFt p
  else
    cls ≠ 0 && s.windows p cls ≠ [] && ((s.windows p cls).foldl (fun m w => max m (w.2 - w.1)) 0) < s.longest p q k

/-- The port takes the notice, releases the packet unsent and frees its buffer. -/
def State.discardPkt (s : State) (p q : Nat) (k : Pkt) : State :=
  let s := s.takeNotice q
  let s := (s.freeSent q k).passOver q k.stop
  (s.bump (Adr.SCH_P_CNT_TOOLONG p)).schEvt 0 q p Code.tooLong

/-- Packets that are too long are discarded when they come to be the next one to send; `fuel` bounds them. -/
def State.dropLong (s : State) (p q : Nat) : Nat → State
  | 0 => s
  | n + 1 => match (s.queue q).oldest with
    | some k => if (s.sq q).cur.isNone && s.tooLong p q k then (s.discardPkt p q k).dropLong p q n else s
    | none => s

/-! ### A unit starts -/

/-- A unit of queue q starts on port p at the present instant. -/
def State.startUnit (s : State) (p q : Nat) : State :=
  match s.nextUnit p q with
  | none => s
  | some u =>
    let t := s.clk.now
    let k := s.qClass q
    let x := s.sq q
    let w := max 1 (bits (s.inForce (Adr.SCH_Q_CFG q)) 0 8)
    let f := (x.s + ceilDiv (u.len * 256) w) % 2 ^ 48
    let s := s.hwmDelay q t
    let s := if k = 0 then
        let wait := t - x.since.getD t
        let s := if s.fld (Adr.SCH_P_LIVE_MAX p) 0 24 < wait then s.setRegN (Adr.SCH_P_LIVE_MAX p) (sat 0xFFFFFF wait) else s
        let lim := s.fld (Adr.SCH_P_LIVE_LIM p) 0 16
        if lim ≠ 0 ∧ lim < wait then s.schEvt 1 q p 0 else s
      else s
    let s := s.rebase q
    let s := s.modSq q fun y => { y with
      s := f, f := f, bal := if s.shaped q then y.bal - (u.len : Int) * 65536 else y.bal, since := none, held := none,
      cur := if u.last then none else some (u.pkt.start, u.sent + u.size, u.n + 1) }
    let s := s.modSp p fun y => { y with
      v := y.v.set k x.s,
      fmax := y.fmax.set k (tagMax (y.fmax.getD k 0) f), free := t + s.wireTime p u.len, cls := k, commit := none }
    let s := if s.shaped q then s.wheelIn q else s
    let s := if u.n = 0 then s.takeNotice q else s
    let s := if s.isFerry p then s.sendFerry p q u else s.sendEth p q u
    let s := s.bump (Adr.SCH_P_CNT_UNITS p)
    let s := if u.last then s.dropLong p q (s.queue q).pkts.length else s
    s.schSync q

/-- Counts the units that a guard band holds back, each once (R314). -/
def State.countGuard (s : State) (p t : Nat) : State :=
  iter (s.servedBy p) (fun q s => match s.nextUnit p q with
    | none => s
    | some u =>
      if s.guarded p (s.qClass q) t (s.wireTime p u.len) && s.portReady p && s.shaperOk q t &&
          (s.sq q).held ≠ some (u.pkt.start, u.n) then
        (s.modSq q fun y => { y with held := some (u.pkt.start, u.n) }).bump (Adr.SCH_P_CNT_GUARD p)
      else s) s

/-- UNIT_CHOICE: a busy port within 128 cycles of being free commits its choice; a free one starts a unit (R303). -/
def State.unitChoice (s : State) (p t : Nat) : State :=
  if 2 * s.nXcv ≤ p then s
  else
    let s := s.at_ t
    let t := s.clk.now
    let s := iter (s.servedBy p) (fun q s => s.schSync q) s
    let x := s.sp p
    if t < x.free then
      (if x.commit.isNone ∧ x.free ≤ t + 128 then s.setSp p { x with commit := s.choose p t } else s)
    else
      let s := s.setSp p { x with cls := 3 }
      if s.isFerry p && s.portReady p && (s.xg (p / 2)).ctl ≠ [] then
        let s := s.sendCtl (p / 2)
        s.modSp p fun y => { y with free := t + s.wireTime p (s.ferryLen (p / 2) 16) }
      else
        let s := s.countGuard p t
        let best := s.choose p t
        let go := match x.commit, best with
          | some q, some r => if !s.eligible p q t || (0 < s.qClass q && s.qClass r = 0) then some r else some q
          | _, _ => best
        let s := if go ≠ x.commit && go.any fun r => s.qClass r = 0 && x.commit.any fun q => 0 < s.qClass q && s.eligible p q t then
            s.bump (Adr.SCH_P_CNT_REVOKE p) else s
        match go with
        | some q => s.startUnit p q
        | none => s.setSp p { s.sp p with commit := none }

/-- A class-0 queue that becomes eligible withdraws a lower class's commitment (R303). -/
def State.revoke (s : State) (q : Nat) : State :=
  match s.portOf q with
  | none => s
  | some p =>
    match (s.sp p).commit with
    | some r =>
      if s.qClass q = 0 ∧ s.qClass r ≠ 0 ∧ s.eligible p q s.clk.now then
        (s.modSp p fun x => { x with commit := none }).bump (Adr.SCH_P_CNT_REVOKE p)
      else s
    | none => s

/-! ### Notices -/

/-- NOTICE_ISSUE at an instant: the notice (R229), and the scheduler's reaction to it. -/
def State.noticeIssue (s : State) (q t : Nat) : State :=
  let s := (s.at_ t).issue q
  match s.portOf q with
  | none => s
  | some p =>
    ((s.dropLong p q (s.queue q).pkts.length).schSync q).revoke q

/-! ### Gate lists (R317) -/

/-- Enabled queues of a class that a port serves, content or none. -/
def State.hasClass (s : State) (p cls : Nat) : Bool :=
  s.regs.any fun (r : Nat × Word) => 0x100000 ≤ r.1 && r.1 < 0x200000 && r.1 % 256 = 0 &&
    (let q := (r.1 - 0x100000) / 256
     s.portOf q = some p && s.qClass q = cls)

/-- Base and change times as PTP ns. -/
def State.clBase (s : State) (p : Nat) : Nat :=
  s.fld (Adr.SCH_P_CL_BASE_NS p) 0 30 +
    1000000000 * ((s.reg (Adr.SCH_P_CL_BASE_S_LO p)).toNat + 2 ^ 32 * s.fld (Adr.SCH_P_CL_BASE_S_HI p) 0 16)

def State.clChg (s : State) (p : Nat) : Nat :=
  s.fld (Adr.SCH_P_CL_CHG_NS p) 0 30 +
    1000000000 * ((s.reg (Adr.SCH_P_CL_CHG_S_LO p)).toNat + 2 ^ 32 * s.fld (Adr.SCH_P_CL_CHG_S_HI p) 0 16)

def State.clLen (s : State) (p : Nat) : Nat := s.fld (Adr.SCH_P_CL_CTL p) 0 6 + 1
def State.clCycle (s : State) (p : Nat) : Nat := s.fld (Adr.SCH_P_CL_CYCLE p) 0 30

/-- The code that a commit earns. -/
def State.commitCode (s : State) (p : Nat) : Nat :=
  let bank := 1 - s.operBank p
  let n := s.clLen p
  let cyc := s.clCycle p
  let l := s.gateList p bank n cyc
  if cyc < 1000 ∨ 1000000000 < cyc ∨ (List.range n).any fun e => s.fld (Adr.SCH_P_CL_IVL p bank e) 0 30 < 64 then
    Code.outOfRange
  else if ((List.range n).any fun e => !gateOpen (s.fld (Adr.SCH_P_CL_GATES p bank e) 0 3) 0) ∧ s.hasClass p 0 then Code.inUse
  else if s.hasClass p 1 ∧ ((longestOpen l 1).any fun m => m < s.maxFt p) then Code.noCapacity
  else Code.done

/-- The first admin cycle start at or after an instant. -/
def State.swapAt (s : State) (p from_ : Nat) : Nat :=
  let b := s.clBase p
  if from_ ≤ b then b else b + ceilDiv (from_ - b) (max 1 (s.clCycle p)) * s.clCycle p

def State.pendingList (s : State) (p : Nat) : Bool := s.flag (Adr.SCH_P_CL_CTL p) 10

/-- COMMIT. -/
def State.schCommit (s : State) (p : Nat) : State :=
  let c := s.commitCode p
  let s := s.setFld (Adr.SCH_P_CL_CTL p) 16 8 c
  if c = Code.done then
    (s.setFld (Adr.SCH_P_CL_CTL p) 10 1 1).modSp p fun x => { x with swap := some (s.swapAt p (max (s.clChg p) s.ptpNow)) }
  else s.schEvt 3 0 p c

/-- CANCEL. -/
def State.schCancel (s : State) (p : Nat) : State :=
  (s.setFld (Adr.SCH_P_CL_CTL p) 10 1 0).modSp p fun x => { x with swap := none }

/-- The admin values become the oper list. -/
def State.adoptList (s : State) (p : Nat) : State :=
  (s.setFld (Adr.SCH_P_CL_CTL p) 11 1 (1 - s.operBank p)).modSp p fun x => { x with
    operBase := s.clBase p, operCycle := s.clCycle p, operLen := s.clLen p, swap := none }

/-- LIST_SWAP at its instant (R317 step 5). -/
def State.listSwap (s : State) (p t : Nat) : State :=
  let s := s.at_ t
  match (s.sp p).swap with
  | some x =>
    if s.pendingList p ∧ x ≤ s.ptpNow then ((s.adoptList p).setFld (Adr.SCH_P_CL_CTL p) 10 1 0).schEvt 2 0 p 0 else s
  | none => s

/-- A gate has opened or closed: a commitment whose unit no longer may start falls away. -/
def State.gateMoved (s : State) (p t : Nat) : State :=
  let s := s.at_ t
  match (s.sp p).commit with
  | some q => if s.eligible p q s.clk.now then s else s.modSp p fun x => { x with commit := none }
  | none => s

/-- A wheel slot comes: its queues leave the wheel, or are entered again (R309). -/
def State.wheelSlot (s : State) (t : Nat) : State :=
  let s := s.at_ t
  iter (s.sch.queues.filter fun x => x.2.wheel.any fun w => w ≤ s.clk.now)
    (fun (x : Nat × SQueue) s => s.wheelIn x.1) s

/-! ### Samples (R319) -/

def State.egressShadows (s : State) : List Nat :=
  ((s.qf.map (·.1)).filter (fun q => (s.portOf q).isSome) ++ s.regs.filterMap fun (r : Nat × Word) =>
    if 0x310000 ≤ r.1 ∧ r.1 < 0x330000 ∧ (r.1 % 32 = 0x10 ∨ r.1 % 32 = 0x14) then some ((r.1 - 0x310000) / 32) else none).eraseDups

def State.schSnap (s : State) : State :=
  iter s.egressShadows (fun q s =>
    let on := (s.portOf q).isSome
    let x := s.queue q
    let s := s.setRegN (Adr.SCH_Q_SNAP_UNSENT q) (if on then sat 0xFFFFFFFF (x.tail - x.read) else 0)
    let s := s.setRegN (Adr.SCH_Q_SNAP_DLY q) (if on then sat 0xFFFFFFFF (s.qDelay q s.clk.now) else 0)
    if on then s.hwmDelay q s.clk.now else s) s

/-- SCH_P_STAT and SCH_WHEEL. -/
def State.schStat (s : State) (p : Nat) : Nat :=
  let busy := s.clk.now < (s.sp p).free
  b2n busy + 2 * (if busy then (s.sp p).cls else 3) + 8 * b2n (s.portReady p)

def State.schWheel (s : State) : Nat := s.clk.now / 256 % 4096 + 4096 * (s.clk.now / 1048576 % 2 ^ 20)

/-! ### The meanings of the scheduler's rows, and of those of the fabric and Crossing that it watches -/

/-- Every queue with a tag is compared with its backlog. -/
def State.syncAll (s : State) : State := iter (s.sch.queues.map (·.1)) (fun q s => s.schSync q) s

end Sys2Proof.Machine
end

