-- ==== Sys2Proof/Machine/Dram.lean ====
section
/-! DEFINITION. The memory controllers (R263 to R298): the DRAM address, regions, ECC results, the channel queues and their batches,
refresh, power-down and self-refresh, scrubbing, retirement, repair and return. The contents of DRAM change when a write
is acknowledged (R279); the queues keep what is still to be issued. Readings are log 22. -/

namespace Sys2Proof.Machine

/-! ### Urgency and the queues (R275 to R280) -/

/-- Urgency of a port's request at an age in ns. -/
def State.urgency (s : State) (port age : Nat) : Nat :=
  if port = 13 then 3
  else
    let tgt := 10 * s.fld (Adr.DMC_G_PORT port) 0 16
    let base := s.fld (Adr.DMC_G_PORT port) 16 2
    max base (if tgt ≤ age then 3 else if 3 * tgt ≤ 4 * age then 2 else if tgt ≤ 2 * age then 1 else 0)

def State.urgencyOf (s : State) (r : DReq) : Nat := s.urgency r.port (s.clk.now - r.arr)

/-- The longest wait of an urgency-3 request (DMC_CH_MAXWAIT). -/
def State.noteWait (s : State) (ch : Nat) (r : DReq) : State :=
  if s.urgencyOf r = 3 then
    let tgt := if r.port = 13 then 0 else 10 * s.fld (Adr.DMC_G_PORT r.port) 0 16
    let w := sat 65535 (s.clk.now - (r.arr + tgt))
    if s.fld (Adr.DMC_CH_MAXWAIT (ch / 4) (ch % 4)) 0 16 < w then s.setRegN (Adr.DMC_CH_MAXWAIT (ch / 4) (ch % 4)) w else s
  else s

/-- The answers of a port's requests: codes and bytes, oldest first. -/
def State.dramAnswer (s : State) (port : Nat) (l : List Word) : State := { s with rd := tput s.rd (16 + port) l }

def wordsOf (l : List Byte) : List Word := l.map fun b => b.setWidth 32

/-- Room for one more burst in a queue: the last entries take only urgency 3. -/
def State.dramRoom (s : State) (ch : Nat) (write : Bool) (r : DReq) : Bool :=
  let x := s.dc ch
  let n := if write then x.writes.length else x.reads.length
  let lim := if write then 64 else 32
  let keep := if write then 8 else 4
  n < lim - keep || (n < lim && s.urgencyOf r = 3)

/-- A read of a unit whose bytes are all in queued writes is answered from there. -/
def State.dramForward (s : State) (ch : Nat) (r : DReq) : Bool :=
  match (s.dc ch).writes.find? (·.unit = r.unit) with
  | some w => r.cover.all w.cover.contains
  | none => false

/-- A burst enters its channel's queue, merges, is forwarded, or waits. -/
def State.dramEnter (s : State) (ch : Nat) (write : Bool) (r : DReq) : State :=
  let s := s.modDc ch fun x => { x with pd := false, sr := false }
  let x := s.dc ch
  if write then
    match x.writes.find? (·.unit = r.unit) with
    | some _ => s.setDc ch { x with writes := x.writes.map fun w =>
        if w.unit = r.unit then { w with cover := w.cover ++ r.cover } else w }
    | none =>
      if s.dramRoom ch true r then s.setDc ch { x with writes := x.writes ++ [r], drain := x.drain || 48 ≤ x.writes.length + 1 }
      else s.setDc ch { x with wait := x.wait ++ [(true, r)] }
  else if s.dramForward ch r then s.bump (Adr.DMC_CH_CNT_FWD (ch / 4) (ch % 4))
  else if s.dramRoom ch false r then s.setDc ch { x with reads := x.reads ++ [r] }
  else s.setDc ch { x with wait := x.wait ++ [(false, r)] }

/-- The waiting burst that takes an entry: the highest urgency, then round-robin order from the pointer. -/
def State.dramNextWait (s : State) (ch : Nat) : Option (Bool × DReq) :=
  let x := s.dc ch
  let key (w : Bool × DReq) : Nat := 16 * (3 - s.urgencyOf w.2) + (w.2.port + 14 - x.rr % 14) % 14
  (x.wait.filter fun w => s.dramRoom ch w.1 w.2).foldl (fun (b : Option (Bool × DReq)) w => match b with
    | none => some w
    | some v => if key w < key v then some w else b) none

/-- Waiting bursts enter as far as there is room. -/
def State.dramAdmit (s : State) (ch : Nat) : Nat → State
  | 0 => s
  | n + 1 => match s.dramNextWait ch with
    | none => s
    | some w =>
      let s := s.modDc ch fun x => { x with wait := x.wait.erase w, rr := (w.2.port + 1) % 14 }
      (s.dramEnter ch w.1 w.2).dramAdmit ch n

/-- The units that an access of n bytes touches, with the bytes of each. -/
def unitsOf (a n : Nat) : List (Nat × List Nat) :=
  (List.range' (a / 32) ((a + n + 31) / 32 - a / 32)).map fun u =>
    (u, (List.range 32).filter fun i => a ≤ 32 * u + i && 32 * u + i < a + n)

/-- An access by a port: its code and, for a read, the bytes. The bursts enter the channel queues. -/
def State.dramAccess (s : State) (port a : Nat) (op : DramOp) : Nat × List Byte × State :=
  let n := match op with
    | .read n => n
    | .write l => l.length
  let write := match op with
    | .read _ => false
    | .write _ => true
  let code := s.dramCode port a n write
  if code ≠ Code.done then (code, [], s.dramRefuse port a code)
  else
    let s := match op with
      | .write l => { s with dram := memWrite 0 s.dram a l }
      | .read _ => s
    let s := iter (unitsOf a n) (fun u s => s.dramEnter (s.chanAt (32 * u.1)) write ⟨port, u.1, u.2, s.clk.now⟩) s
    match op with
    | .write _ => (Code.done, [], s)
    | .read n => (Code.done, memRead 0 s.dram a n, s)

/-- DRAM_REQUEST. A read that is not forwarded is answered when its row is served. -/
def State.dramRequest (s : State) (port a : Nat) (op : DramOp) : State :=
  if 14 ≤ port ∨ s.nCh = 0 then s
  else
    let r := s.dramAccess port a op
    let s' := r.2.2
    match op with
    | .write _ => s'.dramAnswer port [BitVec.ofNat 32 r.1]
    | .read n =>
      if r.1 ≠ Code.done then s'.dramAnswer port [BitVec.ofNat 32 r.1]
      else if (unitsOf a n).all fun u => s.dramForward (s.chanAt (32 * u.1)) ⟨port, u.1, u.2, 0⟩ then
        s'.dramAnswer port (BitVec.ofNat 32 r.1 :: wordsOf r.2.1)
      else s'

/-! ### Channels in use -/

/-- The channel is fitted, in service and its domain is up. -/
def State.chanOn (s : State) (ch : Nat) : Bool := ch < s.nCh && (s.dc ch).up && !(s.dc ch).out && s.domUp (10 + ch / 4)

def State.liveRuns (s : State) : Bool := s.listsOn.any fun l => s.listClass l = 0 && s.listKind l ≠ 3

/-! ### Retirement (R292 to R296) -/

/-- Why a retirement of a channel cannot begin. -/
def State.retireChanCode (s : State) (ch : Nat) : Nat :=
  let d := ch / 4
  if s.nCh ≤ ch then Code.badTarget
  else if (s.dk d).rstate ≠ 0 ∧ (s.dk d).rch = ch % 4 then Code.notNow
  else if s.reloc = 0 ∨ (s.dk d).rstate ≠ 0 then Code.noCapacity
  else Code.done

/-- Retirement begins: the channel is evacuated. -/
def State.evacuate (s : State) (ch : Nat) : State := s.setDk (ch / 4) ⟨1, ch % 4, 0⟩

/-- An automatic retirement: its action code, 3 where it begins; a channel that cannot be retired stays in service and is
reported (log 22). -/
def State.autoRetire (s : State) (ch : Nat) : State :=
  let c := s.retireChanCode ch
  if c = Code.done then s.evacuate ch
  else if c = Code.noCapacity then s.reportHw (36 + ch / 4) 6 (target 8 ch)
  else s

/-- A row becomes a candidate. -/
def State.addCand (s : State) (ch key : Nat) : State :=
  s.modDc ch fun x => if x.cand.contains key then x else { x with cand := x.cand ++ [key] }

/-- A corrected read of a row (R272, R293). -/
def State.dramCorrected (s : State) (ch key : Nat) : State :=
  let d := ch / 4
  let s := ((s.bump (Adr.DMC_CH_CNT_CORR d (ch % 4))).setRegN (Adr.DMC_CH_LAST_ERR d (ch % 4)) key).dmcEvt d 0
  let n := tget 0 (s.dc ch).corr key + 1
  let s := s.modDc ch fun x => { x with corr := tput x.corr key n }
  if n = s.fld Adr.DMC_G_RETIRE 8 8 then
    let s := s.addCand ch key
    if s.flag Adr.DMC_G_RETIRE 1 && !s.liveRuns then s.autoRetire ch else s.dmcEvt d 5
  else s

/-- An uncorrectable read of a row (R272, R293). -/
def State.dramUncorr (s : State) (ch key : Nat) : State :=
  let d := ch / 4
  let s := ((s.bump (Adr.DMC_CH_CNT_UNCORR d (ch % 4))).setRegN (Adr.DMC_CH_LAST_ERR d (ch % 4)) (key + 2 ^ 22)).dmcEvt d 1
  let s := (s.addCand ch key).reportHw (36 + d) 1 (target 8 ch) ch key
  if s.flag Adr.DMC_G_RETIRE 0 then s.autoRetire ch else s.dmcEvt d 5

/-! ### Batches (R278, R280) -/

/-- The stream whose data an engine's port was reading reports a fault (R272). -/
def State.portFault (s : State) (port : Nat) : State :=
  if 3 ≤ port ∧ port ≤ 7 then match (s.eng (port - 3)).work with
    | some w => s.reportStream (25 + port) 0x0106 (target 1 w.stream) 4
    | none => s
  else if port = 8 ∨ port = 9 then match (s.ce (port - 8)).cur with
    | some c => s.reportStream (25 + port) 0x0106 (target 2 c) 4
    | none => s
  else s

/-- One read burst is served with what the ECC check finds. -/
def State.serveRead (s : State) (ch : Nat) (r : DReq) (e : Ecc) : State :=
  let s := (s.noteWait ch r).modDc ch fun x => { x with reads := x.reads.erase r }
  let a := 32 * r.unit
  let key := s.rowKey (s.localAt a)
  let bytes := r.cover.map fun i => memGet 0 s.dram (a + i)
  let ecc := if s.eccAt a then e else .good
  let s := s.dramAnswer r.port (BitVec.ofNat 32 (if ecc = .double then Code.aborted else Code.done) :: wordsOf bytes)
  match ecc with
  | .good => s
  | .single => s.dramCorrected ch key
  | .double => (s.dramUncorr ch key).portFault r.port

/-- The oldest burst of the highest urgency. -/
def State.oldestUrgent (s : State) (l : List DReq) : Option DReq :=
  l.foldl (fun (b : Option DReq) r => match b with
    | none => some r
    | some v => if s.urgencyOf v < s.urgencyOf r then some r else b) none

/-- ROW_BATCH. A read of a unit with queued writes waits until they are issued (R279). -/
def State.rowBatch (s : State) (ch : Nat) (errs : List Ecc) (t : Nat) : State :=
  let s := s.at_ t
  if !s.chanOn ch then s
  else
    let x := s.dc ch
    let free := x.reads.filter fun r => !(x.writes.any fun w => w.unit = r.unit)
    match s.oldestUrgent free with
    | none => s
    | some r =>
      let row (q : DReq) := s.rowKey (s.localAt (32 * q.unit))
      let more := free.filter fun q => q ≠ r && row q = row r && s.urgencyOf q ≤ s.urgencyOf r
      let batch := (r :: more).take (s.fld (Adr.DMC_SCHED (ch / 4)) 0 5)
      let s := iter batch.zipIdx (fun q s => s.serveRead ch q.1 (errs.getD q.2 .good)) s
      s.dramAdmit ch (s.dc ch).wait.length

/-- WRITE_BATCH. -/
def State.writeBatch (s : State) (ch t : Nat) : State :=
  let s := s.at_ t
  if !s.chanOn ch then s
  else
    let x := s.dc ch
    let urgent := x.writes.any fun w => s.urgencyOf w = 3
    if !(x.drain || x.reads = [] || urgent) then s
    else match s.oldestUrgent x.writes with
      | none => s
      | some r =>
        let row (q : DReq) := s.rowKey (s.localAt (32 * q.unit))
        let more := x.writes.filter fun q => q ≠ r && row q = row r
        let batch := (r :: more).take (s.fld (Adr.DMC_SCHED (ch / 4)) 0 5)
        let s := iter batch (fun q s => (s.noteWait ch q).modDc ch fun x => { x with writes := x.writes.erase q }) s
        let s := s.modDc ch fun x => { x with drain := x.drain && 16 < x.writes.length }
        s.dramAdmit ch (s.dc ch).wait.length

/-! ### Refresh, power-down, self-refresh, scrubbing, tracking -/

def DChan.empty (x : DChan) : Bool := x.reads = [] && x.writes = [] && x.wait = []

/-- Every owed refresh is issued. -/
def State.refreshAll (s : State) (ch : Nat) : State :=
  let n := (s.dc ch).owed
  (s.modDc ch fun x => { x with owed := 0 }).bumpBy (Adr.DMC_CH_CNT_REF (ch / 4) (ch % 4)) n

/-- REFRESH: an interval passes (R281). -/
def State.refresh (s : State) (ch : Nat) : State :=
  if !s.chanOn ch ∨ (s.dc ch).sr then s
  else
    let s := s.modDc ch fun x => { x with owed := x.owed + 1 }
    let x := s.dc ch
    if x.empty ∨ s.fld (Adr.DMC_REF_CTL (ch / 4)) 0 4 ≤ x.owed then s.refreshAll ch else s

/-- MR4_POLL (R282, R283). -/
def State.mr4Poll (s : State) (ch rate : Nat) : State :=
  if !s.chanOn ch ∨ 3 ≤ rate then s
  else
    let d := ch / 4
    let x := s.dc ch
    let s := (s.setDc ch { x with rate := rate }).setFld (Adr.DMC_TEMP d) (2 * (ch % 4)) 2 rate
    if x.rate < rate then
      let s := if 0 < x.owed then
          ((s.refreshAll ch).dmcEvt d 4).bump (Adr.DMC_CH_CNT_CATCHUP d (ch % 4)) else s
      if rate = 1 then s.dmcEvt d 2 else (s.dmcEvt d 3).reportHw (36 + d) 3 (target 8 ch)
    else s

def State.powerDown (s : State) (ch : Nat) : State :=
  if s.chanOn ch && (s.dc ch).empty && s.fld (Adr.DMC_PWR_CTL (ch / 4)) 0 8 ≠ 0 then s.modDc ch fun x => { x with pd := true }
  else s

/-- SELF_REFRESH_ENTRY: a request that has come before the command abandons it (R285, R286). -/
def State.selfRefresh (s : State) (ch : Nat) : State :=
  let live := (List.range 16).any fun r => bit (s.rgn r).2.2 0 && bit (s.rgn r).2.2 2
  if !s.chanOn ch || s.fld (Adr.DMC_PWR_CTL (ch / 4)) 16 16 = 0 || live then s
  else if !(s.dc ch).empty then s.bump (Adr.DMC_CH_CNT_SRABORT (ch / 4) (ch % 4))
  else (s.refreshAll ch).modDc ch fun x => { x with pd := false, sr := true }

/-- Protected 256-byte blocks of a channel: the local base and count of each protected region. -/
def State.eccSpans (s : State) : List (Nat × Nat) :=
  (((List.range 16).map s.rgn).filter fun r => bit r.2.2 0 && bit r.2.2 1).map fun r =>
    (r.1 / max 1 s.nCh, r.2.1 / max 1 s.nCh / 256)

/-- Local address of the k-th protected block. -/
def spanAt : List (Nat × Nat) → Nat → Nat
  | [], _ => 0
  | (b, n) :: t, k => if k < n then b + 256 * k else spanAt t (k - n)

/-- PATROL_SCRUB (R273): what it corrects it writes back. -/
def State.patrol (s : State) (ch : Nat) (e : Ecc) : State :=
  let spans := s.eccSpans
  let n := spans.foldl (fun a x => a + x.2) 0
  if !s.chanOn ch || s.fld Adr.DMC_G_SCRUB 0 16 = 0 || n = 0 then s
  else
    let k := (s.dc ch).scrub % n
    let key := s.rowKey (spanAt spans k)
    let s := s.modDc ch fun x => { x with scrub := (k + 1) % n }
    match e with
    | .good => s
    | .single => s.dramCorrected ch key
    | .double => s.dramUncorr ch key

/-- WCK2DQ_OSC (R289). -/
def State.wckOsc (s : State) (ch : Nat) (ok : Bool) : State :=
  if !s.chanOn ch ∨ ok then s else (s.dmcEvt (ch / 4) 9).reportHw (36 + ch / 4) 9 (target 8 ch)

/-- ZQ_LATCH on the channels of controller n: it blocks each for at most 200 ns and changes nothing (R289). -/
def State.zqLatch (s : State) (_n : Nat) : State := s

/-! ### Evacuation, repair, return -/

/-- The channel is the one in a retirement state of its controller. -/
def State.inRetire (s : State) (ch st : Nat) : Bool := (s.dk (ch / 4)).rstate = st && (s.dk (ch / 4)).rch = ch % 4

def State.evacuated (s : State) (ch lost : Nat) : State :=
  if !s.inRetire ch 1 then s
  else
    let d := ch / 4
    let s := s.setDk d ⟨2, ch % 4, s.rtop / 256⟩
    let s := s.modDc ch fun x => { x with up := false, out := true }
    ((s.bumpBy (Adr.DMC_CH_CNT_LOST d (ch % 4)) lost).dmcEvt d 6).reportHw (36 + d) 6 (target 8 ch)

def State.chanRepaired (s : State) (ch : Nat) (ok : Bool) (rows : Nat) : State :=
  if !s.inRetire ch 2 then s
  else
    let d := ch / 4
    let s := s.bumpFld (Adr.DMC_CH_PPR d (ch % 4)) 0 8 rows
    if ok then (s.modDc ch fun x => { x with cand := [], corr := [] }).setDk d ⟨4, ch % 4, 0⟩
    else ((s.setDk d ⟨3, ch % 4, (s.dk d).ptr⟩).dmcEvt d 8).reportHw (36 + d) 8 (target 8 ch)

def State.chanReturned (s : State) (ch : Nat) : State :=
  if !s.inRetire ch 4 then s
  else ((s.setDk (ch / 4) DCtl.fresh).modDc ch fun x => { x with up := true, out := false }).dmcEvt (ch / 4) 7

/-! ### Domain transitions of the controllers (R287) -/

/-- Domain DMCn has gone to RET: its channels are held in self-refresh. -/
def State.dmcRet (s : State) (d : Nat) : State :=
  iter (List.range 4) (fun c s => if (s.dc (4 * d + c)).up then s.modDc (4 * d + c) fun x => { x with sr := true, pd := false } else s) s

/-- Domain DMCn has gone to OFF: its contents are lost (log 6). -/
def State.dmcOff (s : State) (d : Nat) : State :=
  let s := { s with dram := s.dram.filter fun c => s.chanAt c.1 / 4 ≠ d }
  iter (List.range 4) (fun c s => s.modDc (4 * d + c) fun x => { DChan.fresh with out := x.out, cand := x.cand }) s

/-- Domain DMCn is ON again: from RET its channels leave self-refresh, from OFF they are trained. -/
def State.dmcBack (s : State) (d : Nat) : State :=
  iter (List.range 4) (fun c s =>
    if 4 * d + c < s.nCh ∧ !(s.dc (4 * d + c)).out then s.modDc (4 * d + c) fun x => { x with up := true, sr := false } else s) s

/-! ### Register views -/

/-- DMC_STAT. -/
def State.dmcStat (s : State) (d : Nat) : Nat :=
  let f (p : DChan → Bool) : Nat := (List.range 4).foldl (fun a c => a + b2n (p (s.dc (4 * d + c))) * 2 ^ c) 0
  f (·.up) + 16 * f (·.out) + 256 * f (·.sr) + 4096 * f (·.pd) + 65536 * (s.dk d).rstate + 2 ^ 20 * (s.dk d).rch

def State.dmcPpr (s : State) (ch : Nat) : Nat :=
  s.fld (Adr.DMC_CH_PPR (ch / 4) (ch % 4)) 0 8 + 256 * sat 255 (s.dc ch).cand.length

end Sys2Proof.Machine
end

