-- ==== Sys2Proof/Machine/Ptp.lean ====
section
/-! DEFINITION. Network time (R346 to R348, R352): the time unit as a time-receiver, its servo, PPS_IN, and setting and reading
the time. The messages' arithmetic is IEEE 1588's; readings are log 23. -/

namespace Sys2Proof.Machine

/-- PTP_CTL.SRC. -/
def State.ptpSrc (s : State) : Nat := s.fld Adr.PTP_CTL 0 2

def State.ptpProfile (s : State) : Nat := s.fld Adr.PTP_CTL 2 1

def State.ptpPort (s : State) : Nat := s.fld Adr.PTP_CTL 3 3

def State.modPtp (s : State) (f : Ptp → Ptp) : State := { s with ptp := f s.ptp }

/-- The time is set at the present instant. -/
def State.ptpSet (s : State) (ns : Nat) : State := s.modPtp fun p => { p with base := ns, at_ := s.clk.now }

/-- The frequency changes at the present instant (PTP_FREQ). -/
def State.ptpSlew (s : State) (f : Int) : State :=
  (s.modPtp fun p => { p with base := s.ptpNow, at_ := s.clk.now, freq := f }).setRegN Adr.PTP_FREQ (toBits 32 f)

/-- A message of the profile and domain of a time unit that the network disciplines; any other is discarded and counted (R347). -/
def State.ptpTake (s : State) (m : PtpMsg) (f : State → State) : State :=
  let s := s.at_ m.t
  if s.ptpSrc ≠ 0 then s
  else if m.profile = s.ptpProfile && m.domain = s.fld Adr.PTP_CTL 8 8 then f s
  else s.bump Adr.PTP_CNT_BAD

/-- A signed 32-bit value that saturates. -/
def sat32 (x : Int) : Nat :=
  if x < -2147483648 then 0x80000000 else if 2147483647 < x then 0x7FFFFFFF else toBits 32 x

/-- A value held within ±lim. -/
def clampAbs (lim x : Int) : Int := if x < -lim then -lim else if lim < x then lim else x

/-- PTP_SERVO.MAXADJ in 1/65,536 ppm. -/
def State.ptpMaxAdj (s : State) : Int := ((s.fld Adr.PTP_SERVO 16 16 * 65536 : Nat) : Int)

def State.ptpAsym (s : State) : Int := sext 32 (s.reg Adr.PTP_ASYM).toNat

/-- The lock state after a Sync with an offset (R348). -/
def State.ptpLock (s : State) (off : Int) : State :=
  if off.natAbs ≤ s.fld Adr.PTP_LOCK 0 16 then
    let n := sat 16 (s.ptp.good + 1)
    let s := s.modPtp fun p => { p with good := n }
    if n = 16 ∧ s.ptp.st ≠ 3 then (s.modPtp fun p => { p with st := 3 }).raise Adr.PTP_EVT 0 else s
  else
    let was := s.ptp.st
    let s := s.modPtp fun p => { p with good := 0 }
    if was = 3 then (s.modPtp fun p => { p with st := 2 }).raise Adr.PTP_EVT 1 else s

/-- The servo's answer to an offset: a step, a slew at MAXADJ, or the PI loop (R348). -/
def State.ptpServo (s : State) (off : Int) : State :=
  if 1000000 < off.natAbs then
    if s.flag Adr.PTP_CTL 6 then (s.ptpSet ((s.ptpNow : Int) - off).toNat).raise Adr.PTP_EVT 3
    else s.ptpSlew (if 0 < off then -s.ptpMaxAdj else s.ptpMaxAdj)
  else
    let s := s.modPtp fun p => { p with sum := p.sum + off }
    s.ptpSlew (clampAbs s.ptpMaxAdj
      (Config.servoFreq (s.fld Adr.PTP_SERVO 0 8) (s.fld Adr.PTP_SERVO 8 8) off s.ptp.sum))

/-- A Sync is used: sent at t1 (corrected) and received at t2 (R348). -/
def State.ptpUse (s : State) (t1 t2 : Nat) : State :=
  let off : Int := (t2 : Int) - t1 - s.ptp.mpd - s.ptpAsym
  let s := (s.modPtp fun p => { p with t1 := t1, t2 := t2, sync := none }).bump Adr.PTP_CNT_SYNC
  ((s.setRegN Adr.PTP_OFFSET (sat32 off)).ptpLock off).ptpServo off

def State.fromMaster (s : State) (m : PtpMsg) : Bool := s.ptp.master = some (m.src, m.port)

/-- The parts of a dataset in the order of the comparison of IEEE 1588-2019, 9.3.4: two of one clock differ only in the
steps removed and the sender. -/
def Foreign.rank (f : Foreign) : List Nat :=
  [f.gm.prio1, f.gm.cls, f.gm.acc, f.gm.var, f.gm.prio2, f.gm.id, f.gm.steps, f.src, f.port]

/-- Lexicographic order. -/
def lexLt : List Nat → List Nat → Bool
  | a :: t, b :: u => a < b || (a = b && lexLt t u)
  | _, _ => false

def Foreign.better (a b : Foreign) : Bool :=
  if a.gm.id = b.gm.id then lexLt [a.gm.steps, a.src, a.port] [b.gm.steps, b.src, b.port] else lexLt a.rank b.rank

def bestForeign : List Foreign → Option Foreign
  | [] => none
  | f :: t => match bestForeign t with
    | none => some f
    | some g => some (if g.better f then g else f)

/-- An Announce enters the foreign table of 8 entries; the entry heard longest ago gives way. -/
def putForeign (f : Foreign) (l : List Foreign) : List Foreign :=
  let l := l.filter fun g => !(g.src = f.src && g.port = f.port)
  let old := (least? (l.map (·.last))).getD 0
  let l := if l.length < 8 then l else match l.findIdx? (·.last = old) with
    | some i => l.eraseIdx i
    | none => l
  l ++ [f]

/-- The clockIdentity registers of the time-transmitter, byte 0 lowest. -/
def State.setGm (s : State) (id : Nat) : State :=
  (s.setRegN Adr.PTP_GM_ID_LO (leNat ((beBytes 8 id).take 4))).setRegN Adr.PTP_GM_ID_HI (leNat ((beBytes 8 id).drop 4))

/-- Selection of the time-transmitter (R347, R348). -/
def State.ptpSelect (s : State) : State :=
  match bestForeign s.ptp.foreign with
  | none => s
  | some f =>
    if s.ptp.master = some (f.src, f.port) then s
    else ((s.modPtp fun p => { p with master := some (f.src, f.port), st := 2, good := 0, sync := none }).setGm f.src).raise
      Adr.PTP_EVT 2

def State.setMpd (s : State) (d : Int) : State :=
  (s.modPtp fun p => { p with mpd := d, req := none, resp := none }).setRegN Adr.PTP_MPD (sat32 d)

/-- PTP_SET_S_HI.GO (R352). -/
def State.ptpGo (s : State) : State :=
  s.ptpSet (((s.reg Adr.PTP_SET_S_LO).toNat + 2 ^ 32 * s.fld Adr.PTP_SET_S_HI 0 16) * 1000000000 +
    (s.reg Adr.PTP_SET_NS).toNat)

/-- A read of PTP_TIME_NS latches the seconds (R352). -/
def State.ptpRead (s : State) : Word × State :=
  (BitVec.ofNat 32 (s.ptpNow % 1000000000), s.modPtp fun p => { p with secs := s.ptpNow / 1000000000 % 2 ^ 48 })

/-- PTP_STAT. -/
def State.ptpStat (s : State) : Nat :=
  (if s.ptpSrc = 0 then (if s.ptp.st = 0 then 1 else s.ptp.st) else 0) + 8 * b2n s.ptp.master.isSome

end Sys2Proof.Machine
end

