-- ==== Sys2Proof/Machine/Dma.lean ====
section
/-! DEFINITION. The DMA engine (R353 to R369): handing over, the start and the checks of a descriptor, the move of its data,
the arbitration of its beats, its completion, and dropping and recovery. What a transfer writes is written at its completion; readings
are log 24. -/

namespace Sys2Proof.Machine

def State.dch_ (s : State) (k : Nat) : DmaChan := tget DmaChan.fresh s.dma k

def State.setDma (s : State) (k : Nat) (x : DmaChan) : State := { s with dma := tset DmaChan.fresh s.dma k x }

def State.modDma (s : State) (k : Nat) (f : DmaChan → DmaChan) : State := s.setDma k (f (s.dch_ k))

/-- The channel and the engine are enabled, in a domain that is up. -/
def State.dmaOn (s : State) (k : Nat) : Bool :=
  k < s.nDma && s.domUp 2 && s.flag Adr.DMA_CTL 0 && s.flag (Adr.DMA_C_CTL k) 0 && !(s.dch_ k).drop

/-- DMA_C_CFG.MASTER: the sequencer's channel. -/
def State.dmaSeq (s : State) (k : Nat) : Bool := s.flag (Adr.DMA_C_CFG k) 2

/-- An event of a channel, with its bit of DMA_PEND. -/
def State.dmaEvt (s : State) (k n : Nat) : State := (s.raise Adr.DMA_EVT n).raise Adr.DMA_PEND k

/-! ### Descriptors (R358) -/

def dWord (d : List Word) (i : Nat) : Word := d.getD i 0

def dSrcKind (d : List Word) : Nat := bits (dWord d 0) 1 2
def dDstKind (d : List Word) : Nat := bits (dWord d 0) 3 2
def dCheck (d : List Word) : Nat := bits (dWord d 0) 5 2
def dAppend (d : List Word) : Bool := bit (dWord d 0) 7
def dPre (d : List Word) : Nat := bits (dWord d 0) 8 2
def dFence (d : List Word) : Nat := bits (dWord d 0) 10 2

/-- The fence that a descriptor attaches to its EOP. -/
def dEopFence (d : List Word) : PktFence := if dFence d = 1 then .wr else if dFence d = 3 then .host else .none

/-- The descriptor has a host end. -/
def dHost (d : List Word) : Bool := dSrcKind d = 0 || dDstKind d = 0

def dLen (d : List Word) : Nat := bits (dWord d 1) 0 28
def dSrc (d : List Word) : Nat := (dWord d 2).toNat + 2 ^ 32 * (dWord d 3).toNat
def dDst (d : List Word) : Nat := (dWord d 4).toNat + 2 ^ 32 * (dWord d 5).toNat
def dSrcQ (d : List Word) : Nat := bits (dWord d 2) 0 12
def dDstQ (d : List Word) : Nat := bits (dWord d 4) 0 12

/-- Bytes written at the destination. -/
def dOut (d : List Word) (n : Nat) : Nat := if dAppend d then n + 4 else n

/-- The rules of R355 and R358 that need the descriptor alone. -/
def dBad (d : List Word) : Bool :=
  dSrcKind d = 3 || dDstKind d = 3 || dCheck d = 3 || dFence d = 2 || (dFence d ≠ 0 && dDstKind d ≠ 2) ||
  bits (dWord d 0) 13 19 ≠ 0 || bits (dWord d 1) 28 4 ≠ 0 || dLen d = 0 || dWord d 7 ≠ 0 ||
  (dSrcKind d = 0 && dDstKind d = 0) || (dSrcKind d = 2 && dSrcQ d < 16 && dSrcQ d ≠ 4) || (dDstKind d = 2 && dDstQ d < 16)

/-- A queue of class LIVE. -/
def State.qLive (s : State) (q : Nat) : Bool := s.qEnabled q && s.qClass q = 0

/-- RLOC of a channel's ring; a TPV-9M channel has none. -/
def State.ringLoc (s : State) (k : Nat) : Nat := if s.fuse.m then 3 else s.fld (Adr.DMA_C_RING_CFG k) 4 2

/-- The address of the ring entry at HEAD. -/
def State.ringAt (s : State) (k : Nat) : Nat :=
  s.pair (Adr.DMA_C_RING_LO k) (Adr.DMA_C_RING_HI k) + 64 * ((s.dch_ k).head % 2 ^ s.fld (Adr.DMA_C_RING_CFG k) 0 4)

/-- Every domain that the descriptor names is ON and not draining (R367). -/
def State.dmaDomains (s : State) (k : Nat) (d : List Word) : Bool :=
  (!(dSrcKind d = 0 || dDstKind d = 0 || s.ringLoc k = 0) || s.domRuns 21) &&
  (!(dSrcKind d = 1 || dDstKind d = 1 || s.ringLoc k = 1) || s.dramOn) &&
  (!(dSrcKind d = 2 || dDstKind d = 2) || s.domRuns 2)

/-- What an accepted descriptor is refused for at its start (R355, R356, R358, R367, R373). -/
def State.dmaCode (s : State) (k : Nat) (d : List Word) : Nat :=
  if dBad d || (dSrcKind d = 2 && s.qLive (dSrcQ d)) || (dDstKind d = 2 && s.qLive (dDstQ d)) then Code.configInvalid
  else if !s.dmaDomains k d then Code.domainOff
  else if (dHost d || (!s.fuse.m && s.ringLoc k = 0)) && !s.pcieUp then Code.notNow
  else if (dSrcKind d = 2 && !s.qEnabled (dSrcQ d)) || (dDstKind d = 2 && !s.qEnabled (dDstQ d)) then Code.badTarget
  else if dSrcKind d = 2 && !(s.qCons (dSrcQ d) = 3 && s.qConsIdx (dSrcQ d) = k) then Code.notOwner
  else if dSrcKind d = 1 && s.dramCode 11 (dSrc d) (dLen d) false ≠ Code.done then s.dramCode 11 (dSrc d) (dLen d) false
  else if dDstKind d = 1 then s.dramCode 11 (dDst d) (dOut d (dLen d)) true
  else Code.done

/-! ### Results (R360, R363, R365) -/

def wordBytes (l : List Word) : List Byte := l.flatMap fun w => leBytes 4 w.toNat

def bytesWords : List Byte → List Word
  | a :: b :: c :: d :: t => BitVec.ofNat 32 (leNat [a, b, c, d]) :: bytesWords t
  | _ => []

/-- Data memory bytes at an aligned byte address, as words. -/
def State.dmemWords (s : State) (a n : Nat) : List Word := (List.range n).map fun i => s.z (Adr.SEQ_DMEM ((a / 4 + i) % 16384))

def State.putDmem (s : State) (a : Nat) (l : List Word) : State :=
  iter l.zipIdx (fun w s => s.setReg (Adr.SEQ_DMEM ((a / 4 + w.2) % 16384)) w.1) s

/-- Words written into a channel's ring, i bytes into the entry at HEAD. -/
def State.ringPut (s : State) (k i : Nat) (l : List Word) : State :=
  let a := s.ringAt k + i
  match s.ringLoc k with
  | 0 => if s.pcieUp then s.hostSend a (wordBytes l) false false else s
  | 1 => (s.dramAccess 11 a (.write (wordBytes l))).2.2
  | 2 => s.putDmem a l
  | _ => s

def DRes.word (r : DRes) : Word := BitVec.ofNat 32 (r.code + 256 * b2n r.valid + 512 * b2n r.poisoned)

/-- The result is stored: in the descriptor, whose OWN then falls and HEAD advances, or in DMA_C_RES. -/
def State.dmaStore (s : State) (k : Nat) (d : List Word) (r : DRes) : State :=
  if s.fuse.m then
    ((s.setReg (Adr.DMA_C_RES k) r.word).setReg (Adr.DMA_C_RES_CHK k) r.check).setReg (Adr.DMA_C_RES_BYTES k) r.bytes
  else
    ((s.ringPut k 32 [r.word, r.check, r.bytes, 0]).ringPut k 0 [putBits (dWord d 0) 0 1 0]).modDma k fun x =>
      { x with head := (x.head + 1) % 65536 }

/-- A channel halts with a code (R364). -/
def State.dmaHalt (s : State) (k code : Nat) : State := s.modDma k fun x => { x with halted := true, code := code }

/-- A descriptor completes: its result, its events and counts, and the halt of R364. -/
def State.dmaEnd (s : State) (k : Nat) (d : List Word) (r : DRes) : State :=
  let s := (s.modDma k fun x => { x with cur := none, moved := none }).dmaStore k d r
  let s := (s.bump (Adr.DMA_C_CNT_DESC k)).occur (0xB0 + k)
  let s := if bit (dWord d 0) 12 then s.dmaEvt k 0 else s
  let s := if r.poisoned then (s.dmaEvt k 3).reportHw 8 3 (target 0 0) k else s
  if r.code ≠ Code.done then ((s.bump (Adr.DMA_C_CNT_ERR k)).dmaEvt k 1).dmaHalt k r.code else s

/-- A descriptor of which nothing is moved completes with a code. -/
def State.dmaRefuse (s : State) (k : Nat) (d : List Word) (code : Nat) : State := s.dmaEnd k d ⟨code, false, false, 0, 0⟩

/-- A descriptor in flight ends early: the check value and the bytes acknowledged are not stated (log 2401). -/
def State.dmaCut (s : State) (k : Nat) (d : List Word) (code : Nat) : State :=
  let c := s.freshWord
  let n := c.2.freshWord
  n.2.dmaEnd k d ⟨code, false, false, c.1, n.1⟩

/-! ### Queues that descriptors name (R243, R245) -/

/-- A descriptor names the queue. -/
def dNames (d : List Word) (q : Nat) : Bool := (dSrcKind d = 2 && dSrcQ d = q) || (dDstKind d = 2 && dDstQ d = q)

/-- The descriptors that a channel has: the one in progress, those handed over in a ring that the device itself holds, and a shadow set.
A ring in host memory is not the device's to read before its turn. -/
def State.dmaDescs (s : State) (k : Nat) : List (List Word) :=
  let x := s.dch_ k
  let n := 2 ^ s.fld (Adr.DMA_C_RING_CFG k) 0 4
  let at_ (i : Nat) : Nat := s.pair (Adr.DMA_C_RING_LO k) (Adr.DMA_C_RING_HI k) + 64 * ((x.head + i) % n)
  let ring := (List.range (min n ((x.tail + 65536 - x.head) % 65536))).map at_
  x.cur.toList ++
    (if s.fuse.m then [(List.range 8).map fun i => s.z (Adr.DMA_C_SHD k i)]
     else if s.ringLoc k = 1 then ring.map fun a => bytesWords (memRead 0 s.dram a 32)
     else if s.ringLoc k = 2 then ring.map fun a => s.dmemWords a 8
     else [])

/-- An enabled channel names the queue: as its consumer, or in a descriptor. -/
def State.dmaNames (s : State) (k q : Nat) : Bool :=
  s.flag (Adr.DMA_C_CTL k) 0 && ((s.qCons q = 3 && s.qConsIdx q = k) || (s.dmaDescs k).any fun d => dNames d q)

/-! ### Starting (R362, R363, R365) -/

/-- An access of the engine's port has not been acknowledged or answered. -/
def State.dmaPortBusy (s : State) : Bool :=
  s.portWaits 11 || s.dch.any fun (c : Nat × DChan) => (c.2.reads ++ c.2.wait.map (·.2)).any fun r => r.port = 11

/-- PRE_FENCE before the first access of a descriptor is complete (R358): a FENCE_RW waits for what the engine's port has issued, and
a FENCE_WR, which orders writes only, for the descriptor's first write; the read-back of a FENCE_HOST returns at once (log 43). -/
def State.dmaPreMet (s : State) (d : List Word) (writes : Bool) : Bool :=
  if dPre d = 2 then !s.dmaPortBusy else if dPre d = 1 && writes then !s.portWaits 11 else true

/-- A descriptor starts, or is refused; its HOST fence is issued first, and then the read of a host source. -/
def State.dmaStart (s : State) (k : Nat) (d : List Word) : State :=
  let c := s.dmaCode k d
  let s := s.modDma k fun x => { x with cur := some d, pos := 0 }
  let s := if c = Code.done ∧ dPre d = 3 then s.readBack else s
  if c ≠ Code.done then s.dmaRefuse k d c
  else if dSrcKind d = 0 then s.emit (.hostRead (dSrc d) (dLen d) (s.flag (Adr.DMA_C_CFG k) 3)) else s

/-- The pending shadow set of a TPV-9M channel is copied into the idle active set (R365). -/
def State.dmaTakeShadow (s : State) (k : Nat) : State :=
  let x := s.dch_ k
  let d := (List.range 8).map fun i => s.z (Adr.DMA_C_SHD k i)
  if s.fuse.m && s.dmaOn k && x.shd && x.cur.isNone && !x.halted && s.dmaPreMet d false then
    (s.modDma k fun x => { x with shd := false }).dmaStart k d
  else s

/-- A new TAIL (R363), from the channel's master. -/
def State.dmaTail (s : State) (k tail : Nat) : Nat × State :=
  if 2 ^ s.fld (Adr.DMA_C_RING_CFG k) 0 4 < (tail % 65536 + 65536 - (s.dch_ k).head) % 65536 then (Code.outOfRange, s)
  else (Code.done, s.modDma k fun x => { x with tail := tail % 65536 })

/-- The host's doorbell. -/
def State.dmaDb (s : State) (k : Nat) (v : Word) : Nat × State :=
  if s.dmaSeq k then (Code.notOwner, s) else s.dmaTail k v.toNat

/-- The host's GO (R365), a register of the TPV-9M: elsewhere it has no effect. -/
def State.dmaGoHost (s : State) (k : Nat) (v : Word) : Nat × State :=
  if !s.fuse.m then (Code.done, s)
  else if s.dmaSeq k then (Code.notOwner, s)
  else if (s.dch_ k).shd then (Code.notNow, s)
  else if !bit v 0 then (Code.done, s)
  else (Code.done, (s.modDma k fun x => { x with shd := true }).dmaTakeShadow k)

/-- DMA_GO of the sequencer (R204, R353, R363, R365). -/
def State.dmaGo (s : State) (k gb : Nat) : Nat × State :=
  if s.nDma ≤ k then (Code.badTarget, s)
  else if !s.dmaSeq k then (Code.notOwner, s)
  else if !s.fuse.m then s.dmaTail k gb
  else if (s.dch_ k).shd then (Code.notNow, s)
  else
    let s := iter ((s.dmemWords gb 8).zipIdx) (fun (w : Word × Nat) s => s.setReg (Adr.DMA_C_SHD k w.2) w.1) s
    (Code.done, (s.modDma k fun x => { x with shd := true }).dmaTakeShadow k)

/-- DESCRIPTOR_READ: the entry at HEAD of a ring, whose words a host ring supplies. -/
def State.dmaFetch (s : State) (k : Nat) (words : List Word) : State :=
  let x := s.dch_ k
  if s.fuse.m || !s.dmaOn k || x.halted || x.cur.isSome || x.head = x.tail then s
  else
    let a := s.ringAt k
    let (code, d, s) := match s.ringLoc k with
      | 0 =>
        if !s.domRuns 21 then (Code.domainOff, [], s)
        else if !s.pcieUp then (Code.notNow, [], s)
        else (Code.done, words.take 16, s.emit (.hostRead a 64 false))
      | 1 =>
        let r := s.dramAccess 11 a (.read 64)
        (r.1, bytesWords r.2.1, r.2.2)
      | _ => (Code.done, s.dmemWords a 16, s)
    if code ≠ Code.done then (s.dmaEvt k 1).dmaHalt k code
    else if !bit (dWord d 0) 0 then ((s.dmaHalt k Code.notOwner).dmaEvt k 2).reportSw 8 2 Code.notOwner k
    else if s.dmaPreMet d false then s.dmaStart k d else s

/-! ### Beats (R354) -/

def State.dmaPrio (s : State) (k : Nat) : Nat := s.fld (Adr.DMA_C_CFG k) 0 2

/-- Bytes of a burst: DMA_C_CFG.BURST beats of 32 bytes. -/
def State.dmaBurst (s : State) (k : Nat) : Nat := 32 * s.fld (Adr.DMA_C_CFG k) 8 8

/-- Data bytes that a channel's descriptor moves: of a queue source, those of its packet. -/
def State.dmaSize (s : State) (d : List Word) : Nat :=
  if dSrcKind d = 2 then ((s.queue (dSrcQ d)).oldest.map (·.len)).getD 0 else dLen d

/-- The bytes that a channel has still to move by beats. -/
def State.dmaLeft (s : State) (k : Nat) : Nat :=
  let x := s.dch_ k
  match x.cur with
  | some d => if s.dmaOn k && x.moved.isNone then s.dmaSize d - x.pos else 0
  | none => 0

/-- The channel of equal priority that takes the next burst (R354 rules 3 and 4): the lowest of several that start to compete in this
cycle, else the next in round-robin order from the pointer. -/
def DmaArb.next (a : DmaArb) (l : List Nat) : Option Nat :=
  if l.all fun k => !a.asked.contains k then least? l
  else match least? (l.filter (a.ptr ≤ ·)) with
    | some k => some k
    | none => least? l

/-- One fabric cycle with the channels that have data ready (R354). A channel that held the engine and loses the cycle to one of
higher priority is pre-empted, which it counts; it holds the engine again afterwards. -/
def State.dmaBeat (s : State) (ready : List Nat) : State :=
  let a := s.dmaArb
  let c := (List.range s.nDma).filter fun k => ready.contains k && 0 < s.dmaLeft k
  match least? (c.map s.dmaPrio) with
  | none => { s with dmaArb := { a with last := none, asked := [], hold := [] } }
  | some p =>
    let l := c.filter fun k => s.dmaPrio k = p
    let held := (tget? a.hold p).bind fun h => if l.contains h.1 then some h else none
    match (match held with
      | some h => some h
      | none => (a.next l).map fun k => (k, 0)) with
    | none => s
    | some (k, n) =>
      let m := min 32 (s.dmaLeft k)
      let ends := s.dmaBurst k ≤ n + m || s.dmaLeft k = m
      let s := match a.last with
        | some j => if p < s.dmaPrio j && c.contains j then s.bump (Adr.DMA_C_CNT_PREEMPT j) else s
        | none => s
      let low := a.hold.filter fun h => p < h.1
      { s.modDma k fun x => { x with pos := x.pos + m } with
        dmaArb := {
          hold := if ends then low else tput low p (k, n + m)
          ptr := if held.isSome then a.ptr else (k + 1) % 32
          last := some k
          asked := c } }

/-- The beats up to a completion: the cycles given, then what the channel has left, which it moves alone. -/
def State.dmaBeats (s : State) (k : Nat) (cycles : List (List Nat)) : State :=
  let s := iter cycles (fun r s => s.dmaBeat r) s
  let n := s.dmaLeft k
  { s.modDma k fun x => { x with pos := x.pos + n } with
    dmaArb := { s.dmaArb with hold := s.dmaArb.hold.filter fun h => h.2.1 ≠ k } }

/-! ### The move and the completion (R356, R357, R359, R360) -/

/-- The checksum of R359. -/
def checksum32 : List Byte → Word
  | a :: b :: c :: d :: t => BitVec.ofNat 32 (leNat [a, b, c, d]) + checksum32 t
  | l => BitVec.ofNat 32 (leNat l)

/-- The destination queue's lock is the channel's: producer 12 holds it with nothing in its packet (R230). -/
def State.dmaLock (s : State) (q : Nat) : Bool :=
  let x := s.queue q
  x.lock = some (12, x.tail) && x.backlog = []

/-- The source bytes of a descriptor, whether any is poisoned, and the packet of a queue source; none while it waits. -/
def State.dmaSource (s : State) (d : List Word) (env : DmaEnv) : Option (List Byte × Bool × Option Pkt) × State :=
  match dSrcKind d with
  | 0 => (some ((List.range (dLen d)).map fun i => env.bytes.getD i 0, env.poison, none), s)
  | 1 =>
    let r := s.dramAccess 11 (dSrc d) (.read (dLen d))
    (some (r.2.1, env.poison, none), r.2.2)
  | _ => match s.readPkt (dSrcQ d) with
    | (some (p, l, bad), s) => (some (l, bad, some p), s)
    | (none, s) => (none, s)

/-- The check value over the bytes moved; with CHECK = none its value is not stated (log 2401). -/
def State.dmaCheck (s : State) (d : List Word) (l : List Byte) : Word × State :=
  match dCheck d with
  | 1 => (BitVec.ofNat 32 (crc32c l), s)
  | 2 => (checksum32 l, s)
  | _ => s.freshWord

/-- The release of a queue source after completion (R356). -/
def State.dmaRelease (s : State) (src : Option (Nat × Nat)) : State :=
  match src with
  | some (q, stop) => if s.qAutoRel q then s else s.releaseTo q stop
  | none => s

/-- The data moves to its destination; a queue destination then waits for its notice. -/
def State.dmaMove (s : State) (k : Nat) (d : List Word) (env : DmaEnv) : State :=
  match s.dmaSource d env with
  | (none, s) => s
  | (some (l, bad, pkt), s) =>
    let c := s.dmaCheck d l
    let s := c.2
    let out := if dAppend d then l ++ leBytes 4 c.1.toNat else l
    let r : DRes := ⟨Code.done, !bad && dCheck d ≠ 0, bad, c.1, BitVec.ofNat 32 out.length⟩
    let src := pkt.map fun p => (dSrcQ d, p.stop)
    match dDstKind d with
    | 0 =>
      let s := s.hostSend (dDst d) out (s.flag (Adr.DMA_C_CFG k) 4) (s.flag (Adr.DMA_C_CFG k) 5)
      let s := s.emit (.hostRead ((dDst d + out.length - 1) / 4 * 4) 4 false)
      ((s.dmaEnd k d r).dmaRelease src).dmaTakeShadow k
    | 1 =>
      let w := s.dramAccess 11 (dDst d) (.write out)
      let s := w.2.2
      ((if w.1 = Code.done then s.dmaEnd k d r else s.dmaRefuse k d w.1).dmaRelease src).dmaTakeShadow k
    | _ =>
      let q := dDstQ d
      let start := (s.queue q).tail
      let s := (s.enqueue q 12 out bad).2
      let s := (s.eop q 12 (dWord d 6).toNat (dEopFence d) none).2
      s.modDma k fun x => { x with moved := some (r, some (q, start), src) }

/-- The notice of a packet has been issued, or the packet is gone. -/
def State.noticed (s : State) (q start : Nat) : Bool :=
  let x := s.queue q
  !(x.lock = some (12, start)) && !(x.pkts.any fun p => p.start = start && !p.issued)

/-- DESCRIPTOR_COMPLETE. A channel with a queue source waits for an untaken notice, one with a queue destination for the queue's
lock and then for its packet's notice. -/
def State.dmaComplete (s : State) (k : Nat) (env : DmaEnv) : State :=
  let x := s.dch_ k
  match x.cur with
  | none => s
  | some d =>
    if !s.dmaOn k then s
    else match x.moved with
      | some (r, some (q, start), src) => if s.noticed q start then ((s.dmaEnd k d r).dmaRelease src).dmaTakeShadow k else s
      | some (r, none, src) => ((s.dmaEnd k d r).dmaRelease src).dmaTakeShadow k
      | none =>
        match (if dSrcKind d = 2 then (s.queue (dSrcQ d)).oldest else none) with
        | some p =>
          if dLen d < p.len then
            let s := s.takeNotice (dSrcQ d)
            ((s.consRewind (dSrcQ d) (p.start % 2 ^ 32)).2.dmaRefuse k d Code.tooLong).dmaTakeShadow k
          else lock d
        | none => if dSrcKind d = 2 then s else lock d
where
  lock (d : List Word) : State :=
    if !s.dmaPreMet d true then s
    else if dDstKind d ≠ 2 then (s.dmaBeats k env.cycles).dmaMove k d env
    else
      let q := dDstQ d
      if s.noQueue q then (s.dmaRefuse k d Code.badTarget).dmaTakeShadow k
      else
        let s := if s.holdsLock q 12 || (s.queue q).waiters.contains 12 then s else (s.pktStart q [12]).2
        if s.dmaLock q then (s.dmaBeats k env.cycles).dmaMove k d env else s

/-! ### Failures, dropping and recovery (R361, R364, R366, R367) -/

/-- HOST_READ_FAIL: a data read, a read-back or a ring read ends in a timeout, or in an error. -/
def State.dmaHostFail (s : State) (k : Nat) (timeout : Bool) : State :=
  let x := s.dch_ k
  let code := if timeout then Code.timeout else Code.aborted
  if !s.dmaOn k then s
  else match x.cur with
    | some d => if dHost d then (s.dmaCut k d code).dmaTakeShadow k else s
    | none => if s.ringLoc k = 0 ∧ x.head ≠ x.tail ∧ !x.halted then (s.dmaEvt k 1).dmaHalt k code else s

/-- An open destination packet is discarded by a producer rewind to its start (R366). -/
def State.dmaDiscard (s : State) (k : Nat) : State :=
  match (s.dch_ k).moved with
  | some (_, some (q, start), _) => if (s.queue q).lock = some (12, start) then s.rewindTo q start else s
  | _ => s

/-- A descriptor in flight is aborted (R367). -/
def State.dmaAbort (s : State) (k : Nat) : State :=
  match (s.dch_ k).cur with
  | some d => (s.dmaDiscard k).dmaCut k d Code.aborted
  | none => s

/-- Descriptors in flight with a host end are aborted (R373). -/
def State.dmaAbortHost (s : State) : State :=
  iter (s.dma.filter fun (x : Nat × DmaChan) => x.2.cur.any dHost) (fun (x : Nat × DmaChan) s => s.dmaAbort x.1) s

/-- DMA_C_STAT.BUSY. -/
def State.dmaBusy (s : State) (k : Nat) : Bool :=
  let x := s.dch_ k
  x.drop || x.cur.isSome || (s.dmaOn k && !x.halted && !s.fuse.m && x.head ≠ x.tail)

/-- Bytes that the spec calls undefined are written over a range. -/
def State.scramble (s : State) (a : Nat) : Nat → State
  | 0 => s
  | n + 1 =>
    let b := s.freshByte
    ({ b.2 with dram := memPut 0 b.2.dram a b.1 } : State).scramble (a + 1) n

/-- A channel is dropped at once: HEAD and a destination in DRAM that was being written are undefined (R366). -/
def State.dmaDrop (s : State) (k : Nat) : State :=
  let x := s.dch_ k
  let busy := s.dmaBusy k
  let s := s.dmaDiscard k
  let s := match x.cur with
    | some d => if dDstKind d = 1 ∧ x.moved.isNone then s.scramble (dDst d) (dOut d (dLen d)) else s
    | none => s
  let h := s.freshWord
  if busy then h.2.modDma k fun x => { x with cur := none, moved := none, drop := true, head := h.1.toNat % 65536 }
  else s

/-- DMA_BUSY_CLEAR: the last request already issued has returned or timed out. -/
def State.dmaIdle (s : State) (k : Nat) : State := s.modDma k fun x => { x with drop := false }

/-- EN of DMA_C_CTL written (R366). -/
def State.dmaEn (s : State) (k : Nat) (on : Bool) : Nat × State :=
  let was := s.flag (Adr.DMA_C_CTL k) 0
  if was && !on then (Code.done, (s.dmaDrop k).setFld (Adr.DMA_C_CTL k) 0 1 0)
  else if !was && on then
    (if (s.dch_ k).drop then (Code.notNow, s) else (Code.done, (s.setFld (Adr.DMA_C_CTL k) 0 1 1).dmaTakeShadow k))
  else (Code.done, s)

/-- RST of DMA_C_CTL written (R366): HEAD, TAIL and the shadow state are 0, and DMA_C_STAT is clear. -/
def State.dmaRst (s : State) (k : Nat) : Nat × State :=
  if s.dmaBusy k then (Code.notNow, s)
  else (Code.done, iter (List.range 8) (fun i s => s.setReg (Adr.DMA_C_SHD k i) 0) (s.setDma k DmaChan.fresh))

/-- RESUME of DMA_C_CTL written (R364). -/
def State.dmaResume (s : State) (k : Nat) : Nat × State :=
  if (s.dch_ k).halted then (Code.done, (s.modDma k fun x => { x with halted := false, code := 0 }).dmaTakeShadow k)
  else (Code.notNow, s)

/-- A write of DMA_C_CTL: EN, then RST, then RESUME (R364, R366); the code is that of the first part discarded. -/
def State.dmaCtl (s : State) (k : Nat) (v : Word) : Nat × State :=
  let e := s.dmaEn k (bit v 0)
  let r := if bit v 1 then e.2.dmaRst k else (Code.done, e.2)
  let m := if bit v 2 then r.2.dmaResume k else (Code.done, r.2)
  (if e.1 ≠ Code.done then e.1 else if r.1 ≠ Code.done then r.1 else m.1, m.2)

/-- A write of DMA_CTL (R366). -/
def State.dmaGlbCtl (s : State) (v : Word) : Nat × State :=
  let on := s.flag Adr.DMA_CTL 0
  if on && !bit v 0 then
    (Code.done,
      (iter ((List.range s.nDma).filter fun k => s.flag (Adr.DMA_C_CTL k) 0) (fun k s => s.dmaDrop k) s).setFld Adr.DMA_CTL 0 1 0)
  else if !on && bit v 0 then
    (if (List.range s.nDma).any fun k => (s.dch_ k).drop then (Code.notNow, s)
     else (Code.done, iter (List.range s.nDma) (fun k s => s.dmaTakeShadow k) (s.setFld Adr.DMA_CTL 0 1 1)))
  else (Code.done, s)

/-- DMA_C_STAT and DMA_C_HEAD. -/
def State.dmaStat (s : State) (k : Nat) : Nat :=
  let x := s.dch_ k
  b2n (s.dmaBusy k) + 2 * b2n x.halted + 4 * b2n x.shd + 256 * x.code

def State.dmaHead (s : State) (k : Nat) : Nat := (s.dch_ k).head + 65536 * (s.dch_ k).tail

end Sys2Proof.Machine
end

