-- ==== Sys2Proof/Machine/Windows.lean ====
section
/-! DEFINITION. Request windows (R377 to R383): their record and their answers, which the power domains, the tick, the fabric, the
flash and the microcode all complete. -/

namespace Sys2Proof.Machine

/-- Word i of the record of window w: 0 OPCODE and TARGET, 2 to 15 ARG0 to ARG13. -/
def State.winReq (s : State) (w i : Nat) : Word := s.reg (Adr.HST_W_REQ w i)

def State.winOp (s : State) (w : Nat) : Nat := bits (s.winReq w 0) 0 16

def State.winTarget (s : State) (w : Nat) : Nat := bits (s.winReq w 0) 16 16

def State.winArg (s : State) (w i : Nat) : Word := s.winReq w (2 + i)

/-- A window that holds a request in progress. -/
def State.winBusy (s : State) (w : Nat) : Bool := (tget? s.win w).isSome

/-- The answer packet of R383. -/
def State.answerPkt (s : State) (w code tag : Nat) (ans : List Nat) : List Byte :=
  leBytes 2 (s.winOp w) ++ leBytes 2 (s.winTarget w) ++ leBytes 1 code ++ leBytes 1 tag ++ leBytes 2 0 ++
    leBytes 6 s.clk.count ++ leBytes 2 0 ++ (ans.take 4).flatMap (leBytes 4)

/-- A packet of the host windows (producer 13); its TAG is not stated. -/
def State.queuePkt (s : State) (q : Nat) (l : List Byte) : State :=
  let t := s.freshWord
  (t.2.sendPkt q 13 t.1.toNat l).2

/-- The request of a window completes with a code and answers (R378 step 6, R383, R393). -/
def State.winDone (s : State) (w code : Nat) (ans0 : Nat := 0) (tick : Bool := false) : State :=
  match tget? s.win w with
  | none => s
  | some x =>
    let ans := (List.range 16).map fun i =>
      if i = 0 then ans0 else if tick && i = 14 then s.clk.count % 2 ^ 32 else if tick && i = 15 then s.clk.count / 2 ^ 32 else 0
    let s := iter ans.zipIdx (fun (a : Nat × Nat) s => s.setRegN (Adr.HST_W_ANS w a.2) a.1) s
    let s := (s.setRegN (Adr.HST_W_RESP w) (code + 256 * x.tag)).setRegN (Adr.HST_W_DONE w) 1
    let s := { s with win := tdel s.win w }
    if s.flag (Adr.HST_W_CTL w) 1 then s.queuePkt w (s.answerPkt w code x.tag ans) else s

/-- The request goes on waiting. -/
def State.winWait (s : State) (w : Nat) (k : Wait) : State :=
  match tget? s.win w with
  | none => s
  | some x => { s with win := tput s.win w { x with wait := k } }

/-- The request waits for the tick: PEND = 1 (R379). -/
def State.winPend (s : State) (w : Nat) : State := (s.winWait w .tick).setFld (Adr.HST_W_RESP w) 17 1 1

/-- Windows whose request waits in a way. -/
def State.winsOn (s : State) (p : Wait → Bool) : List Nat := (s.win.filter fun (x : Nat × Window) => p x.2.wait).map (·.1)

end Sys2Proof.Machine
end

