-- ==== Sys2Proof/Machine/Domains.lean ====
section
/-! DEFINITION. Power requests and the start of a transition (R424 to R426), the waking of a spare engine (R128), and the
fences of host requests (R38, R381), which every command may end. -/

namespace Sys2Proof.Machine

def byNo : ReqBy → Nat
  | .host _ => 0
  | .seq => 1
  | .wake => 2
  | .dev => 3

/-- A power request completes. -/
def State.powerDone (s : State) (d : Nat) (by_ : ReqBy) (code : Nat) : State :=
  let s := s.setDomain d { s.domain d with last := code, lastBy := byNo by_ }
  match by_ with
  | .host w => if s.win.any (fun (x : Nat × Window) => x.1 = w && x.2.wait = .power d) then s.winDone w code else s
  | _ => s

/-- A transition begins. -/
def State.powerBegin (s : State) (d : Nat) (st : PState) (by_ : ReqBy) : State :=
  let x := s.domain d
  let ph : Phase := match x.st, st with
    | .on, _ => .draining
    | .ret, .off => .entering
    | _, _ => .exiting
  s.setDomain d { x with phase := ph, target := st, by_ := some by_ }

/-- A request that passes R424 (R425). -/
def State.powerReq (s : State) (d : Nat) (st : PState) (by_ : ReqBy) : State :=
  let x := s.domain d
  if x.phase = .stable then
    (if x.st = st then s.powerDone d by_ Code.done else s.powerBegin d st by_)
  else
    let s := match x.pend with
      | some (_, b) => s.powerDone d b Code.superseded
      | none => s
    s.setDomain d { s.domain d with pend := some (st, by_) }

/-- As soon as a retirement is reported the sequencer wakes the spare in force, where it lies in RET (R128). -/
def State.wakeSpare (s : State) : State :=
  match s.spare with
  | some e => if (s.domain (3 + e)).st = .ret || (s.domain (3 + e)).target = .ret then s.powerReq (3 + e) .on .seq else s
  | none => s

/-- An engine becomes the spare: with SPARE_HOT = 0 its domain goes from ON to RET (R128, R131); a domain that already rests in
RET or OFF stays as it is (R415). -/
def State.restSpare (s : State) (e : Nat) : State :=
  if s.flag Adr.FCT_GLB_CTL 1 || (s.domain (3 + e)).st ≠ .on then s else s.powerReq (3 + e) .ret .seq

/-! ### Fences of the host (R212, R381) -/

/-- An engine of the FENCE_ENG mask is treated as finished: its code, where it is off or retired. -/
def State.fenceTreat (s : State) (e : Nat) : Option Nat :=
  if e < 5 then
    (if s.nFct ≤ e then some Code.badTarget else if s.isRetired e then some Code.notNow
     else if !s.domRuns (3 + e) then some Code.domainOff else none)
  else
    (if s.nCod ≤ e - 5 then some Code.badTarget else if (s.ce (e - 5)).st = 5 then some Code.notNow
     else if !s.domRuns (3 + e) then some Code.domainOff else none)

/-- The engine has work that was issued to it. -/
def State.engBusy (s : State) (e : Nat) : Bool :=
  if e < 5 then
    let x := s.eng e
    x.work.any (fun w => !w.stopped) || x.queue ≠ [] || x.dec ≠ []
  else
    let x := s.ce (e - 5)
    x.cur.isSome || x.aside.isSome || x.ready ≠ []

/-- The result of a fence over a mask of engines: code, and mask of those treated as finished. -/
def State.fenceAns (s : State) (mask : Word) : Nat × Nat :=
  let named := (List.range 7).filter fun e => bit mask e
  let out := named.filter fun e => (s.fenceTreat e).isSome
  (match out with
   | e :: _ => (s.fenceTreat e).getD 0
   | [] => Code.done, out.foldl (fun a e => a + 2 ^ e) 0)

/-- Every engine of a mask that is not treated as finished has finished. -/
def State.fenceIdle (s : State) (mask : Word) : Bool :=
  (List.range 7).all fun e => !bit mask e || (s.fenceTreat e).isSome || !s.engBusy e

/-- The work that an engine has been given and has not finished: its engine, and the stream, picture and band of a Facet engine or
the context and picture of a codec engine (R38). -/
def State.engJobs (s : State) (e : Nat) : List (Nat × Nat × Nat × Nat) :=
  if e < 5 then
    let x := s.eng e
    (match x.work with
      | some w => if w.stopped then [] else [(e, w.stream, w.ord, w.n)]
      | none => []) ++
      x.queue.map (fun b => (e, b.1, b.2.1, b.2.2)) ++ x.dec.map (fun b => (e, 4 + b.1, b.2.1, b.2.2))
  else
    let x := s.ce (e - 5)
    (x.cur.toList ++ x.aside.toList ++ x.ready).flatMap fun c =>
      let y := s.cx c
      (List.range (b2n (y.work ≠ []) + y.code.length + y.closed.length)).map fun i => (e, c, y.picNum + i, 0)

/-- The work of the engines of a mask that a FENCE_ENG waits for. -/
def State.fenceJobs (s : State) (mask : Word) : List (Nat × Nat × Nat × Nat) :=
  ((List.range 7).filter fun e => bit mask e).flatMap s.engJobs

/-- A host fence has completed (R38): its issuer's writes on the host window port are acknowledged, its reads are answered, the
engines have finished or no longer count, or the host writes are confirmed. -/
def State.fenceMet (s : State) (kind : Nat) (jobs : List (Nat × Nat × Nat × Nat)) : Bool :=
  if kind = 2 then jobs.all fun j => (s.fenceTreat j.1).isSome || !(s.engJobs j.1).contains j
  else if kind = 3 then s.hostOpen.isNone
  else !s.portWaits 12 && (kind = 0 || s.dch.all fun (c : Nat × DChan) => (c.2.reads ++ c.2.wait.map (·.2)).all fun r => r.port ≠ 12)

/-- A host fence answers (R212, R381). -/
def State.fenceAnswer (s : State) (w kind : Nat) : State :=
  if kind = 2 then
    let r := s.fenceAns (s.winArg w 1)
    s.winDone w r.1 r.2
  else s.winDone w Code.done

/-- A host fence is issued: it answers, or waits. -/
def State.fenceTry (s : State) (w : Nat) : State :=
  let kind := bits (s.winArg w 0) 0 2
  let jobs := if kind = 2 then s.fenceJobs (s.winArg w 1) else []
  let s := if kind = 3 then s.readBack false else s
  if s.fenceMet kind jobs then s.fenceAnswer w kind else s.winWait w (.fence kind (s.winArg w 1).toNat jobs)

/-- The read-back of window w's FENCE_HOST returns. -/
def State.fenceReturn (s : State) (w : Nat) : State :=
  match (tget? s.win w).map Window.wait with
  | some (.fence 3 _ _) => ({ s with hostOpen := none } : State).fenceAnswer w 3
  | _ => s

/-- Host fences that have completed are answered. -/
def State.fenceScan (s : State) : State :=
  iter s.win (fun (x : Nat × Window) s => match x.2.wait with
    | .fence kind _ jobs => if s.fenceMet kind jobs then s.fenceAnswer x.1 kind else s
    | _ => s) s

end Sys2Proof.Machine
end

