-- ==== Sys2Proof/Machine/Collect.lean ====
section
/-! DEFINITION. The fault collector (R446 to R464): taking reports, self-tests and their outcomes, what a lasting fault does,
repairs, the repair log's entries, the history, and fault injection; and what a command answers: its effect, then the reports
that it raised are taken, then the interrupt lines follow. Readings are log 25. -/

namespace Sys2Proof.Machine

/-! ### Units (R452, R463) -/

/-- The index of a unit in FLT_UNIT, from its TARGET; none for anything else. -/
def fltUnit (tgt : Nat) : Option Nat :=
  let i := tgt % 4096
  match tgt / 4096 with
  | 4 => if i < 5 then some i else none
  | 5 => if i < 2 then some (5 + i) else none
  | 8 => if i < 16 then some (7 + i) else none
  | _ => none

/-- The TARGET of a unit of FLT_UNIT. -/
def unitTarget (u : Nat) : Nat := if u < 5 then target 4 u else if u < 7 then target 5 (u - 5) else target 8 (u - 7)

def State.hasUnit (s : State) (u : Nat) : Bool :=
  if u < 5 then u < s.nFct else if u < 7 then u - 5 < s.nCod else u < 23 && (u - 7) / 4 < s.nDmc

def State.fu (s : State) (u : Nat) : FUnit := tget ⟨[], 0, 0, 0, 0, false⟩ s.flt.units u

/-- Redundant rows of a unit that no remap has taken (R451, R463). -/
def State.rowsFree (s : State) (u : Nat) : Nat := Config.redundantRows u - (s.fu u).rows

def State.modFu (s : State) (u : Nat) (f : FUnit → FUnit) : State :=
  { s with flt := { s.flt with units := tset ⟨[], 0, 0, 0, 0, false⟩ s.flt.units u (f (s.fu u)) } }

/-- The unit is retired; for a channel, from the start of its retirement. -/
def State.unitOut (s : State) (u : Nat) : Bool :=
  if u < 5 then s.isRetired u
  else if u < 7 then (s.ce (u - 5)).st = 5
  else
    let ch := u - 7
    (s.dc ch).out || ((s.dk (ch / 4)).rstate ≠ 0 && (s.dk (ch / 4)).rch = ch % 4)

/-- The unit is out of service: a channel from the end of its evacuation. -/
def State.unitGone (s : State) (u : Nat) : Bool := if u < 7 then s.unitOut u else (s.dc (u - 7)).out

/-- The HW reports of a unit in the last WIN ticks (R452). -/
def State.unitHits (s : State) (u : Nat) : List Nat :=
  (s.fu u).hits.filter fun t => s.clk.count < t + s.fld Adr.FLT_WIN 0 16

def State.fltEvt (s : State) (n : Nat) : State := s.raise Adr.FLT_EVT n

def State.modFlt (s : State) (f : Flt → Flt) : State := { s with flt := f s.flt }

/-! ### The repair log's entries (R409, R410) -/

/-- A repair entry waits for the flash, where FLT_CTL.LOG_EN = 1 (R456). -/
def State.logEntry (s : State) (kind tkind index data : Nat) : State :=
  if s.flag Adr.FLT_CTL 2 then
    s.modFlt fun f => { f with logq := f.logq ++ [leBytes 1 kind ++ leBytes 1 tkind ++ leBytes 2 index ++ leBytes 4 data] }
  else s

def State.logUnit (s : State) (kind u : Nat) : State := s.logEntry kind (unitTarget u / 4096) (unitTarget u % 4096) 0

/-! ### Records (R447, R457, R459) -/

def outcNo : Outc → Nat
  | .none => 0
  | .transient => 1
  | .repaired => 2
  | .lasting => 3
  | .pending => 4

/-- The 32 bytes of a record. -/
def FRec.bytes (r : FRec) : List Byte :=
  leBytes 6 r.tick ++ leBytes 3 r.cycle ++ leBytes 1 r.block ++ leBytes 2 r.code ++ leBytes 1 (r.kind + 4 * b2n r.inj) ++
  leBytes 1 (outcNo r.outcome) ++ leBytes 2 r.unit ++ leBytes 4 r.arg ++ leBytes 4 r.arg2 ++ leBytes 2 r.seq ++
  leBytes 1 r.result ++ leBytes 1 r.action ++ leBytes 4 0

/-- Word i of a record window. -/
def recWord (r : Option FRec) (i : Nat) : Word :=
  match r with
  | none => 0
  | some r => BitVec.ofNat 32 (leNat ((r.bytes.drop (4 * i)).take 4))

/-- A record goes to queue 4 as one packet of producer 14, if the queue can take it now; the packet's TAG is not stated. -/
def State.exportRec (s : State) (r : FRec) : Bool × State :=
  if !s.lockFree 4 14 || (s.full 4).isSome then (false, s)
  else
    let tag := s.freshWord
    let a := tag.2.sendPkt 4 14 tag.1.toNat r.bytes
    if (a.2.queue 4).backlog ≠ [] then (false, a.2.rewindTo 4 (s.queue 4).tail)
    else (true, a.2)

/-- A decided record enters the history (R453, R459). -/
def State.keepRec (s : State) (r : FRec) : State :=
  let up (o : Option FRec) : Option FRec := o.map fun x => if x.seq = r.seq then r else x
  let s := s.modFlt fun f => { f with ring := (r :: f.ring).take 256, first := up f.first, last := up f.last }
  if s.flag Adr.FLT_CTL 0 then
    let e := s.exportRec r
    if e.1 then e.2 else e.2.bump Adr.FLT_CNT_LOST
  else s

/-- PIN is set by a report of a class that FLT_CTL.PIN_MASK selects (R457). -/
def State.pinIf (s : State) (n : Nat) : State := if s.flag Adr.FLT_CTL n then s.modFlt fun f => { f with pin := true } else s

/-! ### What a lasting fault does (R454) -/

/-- The retirement of a unit: its bookkeeping. -/
def State.noteRetired (s : State) (u : Nat) : State :=
  let s := (s.modFu u fun x => { x with st := 0, attempts := 0, since := s.clk.count }).logUnit 2 u
  if u < 5 then s.wakeSpare else s

/-- A lasting fault of a unit: the action taken, and the state after it. -/
def State.lastingUnit (s : State) (r : FRec) (u : Nat) : Nat × State :=
  if s.unitOut u then (r.action, s)
  else if u < 5 then (2, (s.retireFct u).2.noteRetired u)
  else if u < 7 then (2, (s.retireCod (u - 5)).noteRetired u)
  else
    let ch := u - 7
    let s := if r.code = 1 then s.addCand ch r.arg2 else s
    let held := if r.code = 1 then 4 else r.action
    if !s.flag Adr.DMC_G_RETIRE 0 then (held, s)
    else
      let s := s.autoRetire ch
      (if s.unitOut u then 3 else held, s)

/-- An outcome is decided (R451, R454, R457). -/
def State.decide (s : State) (r : FRec) (o : Outc) : State :=
  match o with
  | .repaired =>
    let s := match fltUnit r.unit with
      | some u => s.modFu u fun x => { x with rows := x.rows + 1 }
      | none => s
    (s.logEntry 1 (r.unit / 4096) (r.unit % 4096) (Config.repairWord r.unit r.arg2).toNat).keepRec
      { r with outcome := o, action := 1 }
  | .lasting =>
    let s := ((s.bump Adr.FLT_CNT_LASTING).fltEvt 2).pinIf 16
    match fltUnit r.unit with
    | some u =>
      let a := s.lastingUnit r u
      a.2.keepRec { r with outcome := o, action := a.1 }
    | none => s.keepRec { r with outcome := o }
  | _ => s.keepRec { r with outcome := o }

/-! ### Taking a report (R449, R450, R452, R453) -/

/-- What a test is of: a unit, or a memory of FAB, SEQ or AON by its ARG. -/
def FRec.testKey (r : FRec) : Nat × Nat := (r.unit, if r.unit / 4096 = 9 then r.arg else 0)

/-- A HW report that starts a row check (R450). -/
def FRec.rowTest (r : FRec) : Bool :=
  r.code = 0x0101 || (r.block = 5 && r.code = 0) || (r.block = 4 && r.code = 3)

/-- A HW report that starts a channel's test: UNCORR or TRN_FAIL of a memory controller. -/
def FRec.chanTest (r : FRec) : Bool := 36 ≤ r.block && r.block ≤ 39 && (r.code = 1 || r.code = 9)

/-- LOGIC of an engine, whose count is the test. -/
def FRec.logicTest (r : FRec) : Bool := 28 ≤ r.block && r.block ≤ 34 && r.code = 0x0102

/-- A HW report is judged: at once, by a running test of its element, or by a test that it starts. -/
def State.judge (s : State) (r : FRec) : State :=
  match fltUnit r.unit with
  | some u =>
    if s.unitGone u then s.keepRec { r with action := 0 }
    else
      let s := s.modFu u fun x => { x with hits := s.clk.count :: s.unitHits u }
      go s { r with overTh := s.fld Adr.FLT_CTL 8 4 ≤ (s.unitHits u).length }
  | none => go s r
where
  go (s : State) (r : FRec) : State :=
    if s.flt.tests.any (fun t => t.testKey = r.testKey) || r.rowTest || r.chanTest then
      let r := { r with outcome := .pending }
      let up (o : Option FRec) : Option FRec := o.map fun x => if x.seq = r.seq then r else x
      s.modFlt fun f => { f with tests := f.tests ++ [r], first := up f.first, last := up f.last }
    else s.decide r (if r.overTh then .lasting else if r.logicTest then .transient else .none)

/-- The record of a report as the collector makes it (R447, R457). -/
def State.accept (s : State) (r : FRec) : State :=
  let r := { r with seq := s.flt.made % 65536 }
  let s := s.modFlt fun f => { f with
    made := f.made + 1, last := some r, first := if f.valid then f.first else some r, valid := true,
    armed := f.armed && !r.inj }
  let s := s.fltEvt 0
  match r.kind with
  | 0 => (((s.bump Adr.FLT_CNT_HW).fltEvt 1).pinIf 17).judge r
  | 1 => (((s.bump Adr.FLT_CNT_SW).fltEvt 3).pinIf 18).keepRec r
  | _ => (((s.bump Adr.FLT_CNT_STREAM).fltEvt 4).pinIf 19).keepRec r

/-- The block served next, round-robin (R449). -/
def Flt.nextBlock (f : Flt) : Option Nat :=
  match least? ((f.bufs.map (·.1)).filter (f.ptr ≤ ·)) with
  | some b => some b
  | none => least? (f.bufs.map (·.1))

/-- The collector takes one report. -/
def State.takeOne (s : State) : State :=
  match s.flt.nextBlock with
  | none => s
  | some b =>
    match tget [] s.flt.bufs b with
    | [] => s
    | r :: t => (s.modFlt fun f => { f with bufs := tset [] f.bufs b t, ptr := b + 1 }).accept r

/-- The collector takes what the buffers hold, one report a cycle. -/
def State.collect (s : State) : Nat → State
  | 0 => s
  | n + 1 => if s.flt.bufs = [] then s else s.takeOne.collect n

/-! ### What a command answers -/

abbrev Eff := Host.Outcome State Fault Refusal

/-- What follows a command's own effect, which made u of s: drains that wait go on where they can, the collector takes
the reports that wait, host fences that have completed are answered, and the interrupt lines follow. The fuses and the queue of waiting commands stay as they were (R3). -/
def State.finish (s u : State) : State :=
  { settle { (u.resumeDrains.collect 128).fenceScan with fuse := s.fuse } with pending := s.pending }

/-- A command runs: it has its effect on the state, and what follows it happens. -/
def runs (s : State) (f : State → State) : Eff := .next (s.finish (f s))

/-! ### Work abandoned by a memory error (R454) -/

/-- Whether a report of an uncorrectable error in an engine's memory finds work to abandon. -/
def State.hasWork (s : State) (u : Nat) : Bool :=
  if u < 5 then (s.eng u).work.any fun w => !w.stopped else u < 7 && (s.ce (u - 5)).cur.isSome

/-- The work in progress of an engine is abandoned. -/
def State.abandonWork (s : State) (u : Nat) : State :=
  if u < 5 then s.abandonBand u
  else match (s.ce (u - 5)).cur with
    | some c => ((s.codAbort c).2).modCx c fun x => { x with idrNext := true }
    | none => s

/-- A reporting block of R447 that is present. -/
def State.injBlockOk (s : State) (b : Nat) : Bool :=
  (1 ≤ b && b ≤ 13) || (20 ≤ b && b < 20 + s.nLnd) || (24 ≤ b && b < 24 + s.nXcv) || (28 ≤ b && b < 28 + s.nFct) ||
  (33 ≤ b && b < 33 + s.nCod) || (36 ≤ b && b < 36 + s.nDmc)

/-- The unit of a TARGET is present (R5). -/
def State.unitThere (s : State) (t : Nat) : Bool :=
  let i := t % 4096
  match t / 4096 with
  | 2 => i < s.nCtx
  | 4 => i < s.nFct
  | 5 => i < s.nCod
  | 6 => i < s.nLnd
  | 7 => i < s.nXcv
  | 8 => i < 4 * s.nDmc
  | 9 => s.hasDom i
  | _ => true

/-- A block raises an error of its own; an absent block or unit reports nothing (R5). -/
def State.raiseRep (s : State) (r : Report) (inj force : Bool) : State :=
  if !(s.injBlockOk r.block && s.unitThere r.unit) then s
  else match fltUnit r.unit with
  | some u =>
    if r.kind = 0 && r.code = 0x0101 && u < 7 && s.hasWork u then
      ((s.abandonWork u).report r inj 5 force)
    else s.report r inj 0 force
  | none => s.report r inj 0 force

/-! ### Tests and repairs (R451, R453, R455) -/

/-- The tests of one element end with an outcome. -/
def State.endTest (s : State) (key : Nat × Nat) (o : Outc) : State :=
  let l := s.flt.tests.filter fun t => t.testKey = key
  let s := s.modFlt fun f => { f with tests := f.tests.filter fun t => t.testKey ≠ key }
  iter l (fun r s => s.decide r (if r.overTh then .lasting else o)) s

/-- What a test found: 0 it passes, 1 a word fails and a redundant row is free, else it fails (R451). A forced test fails (R462). -/
def State.testOutcome (s : State) (r : FRec) (res : Nat) : Outc :=
  let res := if r.force && res = 0 then
      (match fltUnit r.unit with
       | some u => if 0 < s.rowsFree u then 1 else 2
       | none => 2)
    else res
  if res = 0 then .transient else if res = 1 && !r.chanTest then .repaired else .lasting

/-- A repair attempt of a retired unit starts (R455); a channel's repair is that of R295. -/
def State.startRepair (s : State) (u : Nat) (auto : Bool) : State :=
  let s := s.modFu u fun x => { x with st := 3, auto := auto, attempts := if auto then sat 3 (x.attempts + 1) else x.attempts }
  if 7 ≤ u then
    let d := (u - 7) / 4
    s.setDk d { s.dk d with rstate := 2 }
  else s

/-- A repair attempt may start: the unit is retired and no attempt runs; a channel waits in state OUT. -/
def State.repairable (s : State) (u : Nat) : Bool :=
  s.hasUnit u && s.unitOut u && (s.fu u).st ≠ 3 && (u < 7 || s.inRetire (u - 7) 3 || (s.dk ((u - 7) / 4)).rstate = 0)

/-- A repair attempt ends. -/
def State.repairEnd (s : State) (u : Nat) (ok : Bool) : State :=
  if ok then
    let s := (s.modFu u fun x => { x with st := 0, hits := [], attempts := 0 }).logUnit 4 u
    if u < 5 then (s.fctRepaired u).restSpare u
    else if u < 7 then
      let e := u - 5
      { (s.codEvt e 4) with cod := { s.cod with back := s.cod.back ++ [e] } }.occur 0xE1
    else s.occur 0xE1
  else (s.modFu u fun x => { x with st := 4, since := s.clk.count }).fltEvt 6

/-- A channel's evacuation ends: it is retired, and its repair begins (R294, R295). -/
def State.chanEvacuated (s : State) (ch lost : Nat) : State :=
  if s.inRetire ch 1 then (((s.evacuated ch lost).noteRetired (7 + ch)).modFu (7 + ch) fun x => { x with st := 3 }).occur 0xE0 else s

/-- The steps of R295 end. -/
def State.chanFixed (s : State) (ch : Nat) (ok : Bool) (rows : Nat) : State :=
  if s.inRetire ch 2 then (s.chanRepaired ch ok rows).repairEnd (7 + ch) ok else s

/-- REPAIR_DONE of an engine, or of a channel whose steps of R295 it ends. -/
def State.repairDone (s : State) (u : Nat) (ok : Bool) : State :=
  if !s.hasUnit u || (s.fu u).st ≠ 3 then s
  else if 7 ≤ u then s.chanFixed (u - 7) ok 0 else s.repairEnd u ok

/-- The automatic attempts that are due (R455). -/
def State.autoRepair (s : State) : State :=
  if !s.flag Adr.FLT_CTL 1 then s
  else iter ((List.range 23).filter fun u =>
      s.repairable u && (s.fu u).attempts < 3 && (s.fu u).since + s.fld Adr.FLT_WIN 16 16 ≤ s.clk.count)
    (fun u s => s.startRepair u true) s

/-! ### Fault injection (R462) -/

def State.injUnlocked (s : State) : Bool := s.fuse.testMode && s.fuse.inject

/-- The KIND of a code, for an event bit the one that its block's chapter gives. -/
def injKind (block code : Nat) : Nat :=
  if code < 0x20 then
    (if (block = 6 && code = 1) || (block = 8 && code = 2) || (block = 4 && code = 5) || (36 ≤ block && block ≤ 39 && code = 10)
     then 1 else 0)
  else if code = 0x103 || code = 0x104 || code = 0x108 || 0x4000 ≤ code then 1
  else if code = 0x106 || code = 0x107 then 2 else 0

def injCodeOk (code : Nat) : Bool := code < 0x20 || (0x100 ≤ code && code ≤ 0x108) || (0x4000 ≤ code && code ≤ 0x7FFF)

/-- The unit that an injected report names: an engine or group by its block, a channel by ARG, a memory by its power domain. -/
def injUnit (block code arg : Nat) : Nat :=
  if 28 ≤ block ∧ block ≤ 32 then target 4 (block - 28)
  else if block = 33 ∨ block = 34 then target 5 (block - 33)
  else if 36 ≤ block ∧ block ≤ 39 then target 8 (4 * (block - 36) + arg % 4)
  else if 20 ≤ block ∧ block < 24 then target 6 (block - 20)
  else if 24 ≤ block ∧ block < 28 then target 7 (block - 24)
  else if code = 0x101 then target 9 (if block = 4 then 1 else if block ≤ 3 ∨ block = 11 then 0 else 2)
  else 0

/-- A write of FLT_INJ_CTL: the code of its refusal, or the state after it. -/
def State.injWrite (s : State) (v : Word) : Nat × State :=
  if !s.injUnlocked then (Code.locked, s)
  else
    let arm := bit v 8 && !s.flt.armed
    if arm && !(s.injBlockOk (bits v 0 8) && injCodeOk (bits v 16 16)) then (Code.outOfRange, s)
    else
      let s := s.setReg Adr.FLT_INJ_CTL (v &&& 0xFFFF02FF)
      if arm then
        let b := bits v 0 8
        let c := bits v 16 16
        let a := (s.reg Adr.FLT_INJ_ARG).toNat
        let k := injKind b c
        let s := s.modFlt fun f => { f with armed := true }
        (Code.done, s.raiseRep ⟨b, c, k, if k = 2 then 0 else injUnit b c a, a, 0, 0⟩ true (bit v 9))
      else (Code.done, s)

/-! ### Register views (R463, R464) -/

def State.fltStat (s : State) : Nat :=
  let n := s.flt.ring.length
  b2n s.flt.valid + 2 * b2n s.flt.pin + 4 * b2n (s.flt.tests ≠ []) + 8 * b2n (n = 0) + 256 * (n - 1) +
    65536 * ((s.flt.last.map (·.seq)).getD 0)

/-- A failed repair leaves the unit HELD, without automatic attempts or once three have failed (R455). -/
def State.unitHeld (s : State) (u : Nat) : Bool := (s.fu u).st = 4 && (!s.flag Adr.FLT_CTL 1 || 3 ≤ (s.fu u).attempts)

def State.unitState (s : State) (u : Nat) : Nat :=
  if s.flt.tests.any fun t => fltUnit t.unit = some u then 1
  else if (s.fu u).st = 3 then 3
  else if s.unitOut u then (if s.unitHeld u then 4 else 2) else 0

def State.unitWord (s : State) (u : Nat) : Nat :=
  if !s.hasUnit u then 0
  else sat 15 (s.unitHits u).length + 16 * s.unitState u + 256 * sat 255 (s.rowsFree u) + 65536 * sat 3 (s.fu u).attempts

def State.glbHealth (s : State) : Nat :=
  let n (l : List Nat) : Nat := (l.filter s.unitOut).length
  let f := n (List.range 5)
  let c := n [5, 6]
  let m := n (List.range' 7 16)
  let parked := (List.range s.nCtx).any fun i => s.cEn i && (s.cx i).parked
  b2n s.faultLow + 2 * b2n (0 < f + c + m || parked) + 4 * b2n s.spare.isSome + 8 * b2n (s.codInService = []) +
    256 * f + 2048 * c + 65536 * sat 15 m

end Sys2Proof.Machine
end

