-- ==== Sys2Proof/Machine/Power.lean ====
section
/-! DEFINITION. Power domains, clocks, supply voltage, the thermal loop and overdrive (R423 to R445). Readings are log 26. -/

namespace Sys2Proof.Machine

/-! ### Who uses a domain (R424) -/

/-- Queues whose QF_Q_CFG.EN is 1, as written. -/
def State.enabledQueues (s : State) : List Nat :=
  s.regs.filterMap fun (r : Nat × Word) =>
    if 0x100000 ≤ r.1 ∧ r.1 < 0x200000 ∧ r.1 % 256 = 0 ∧ bit r.2 0 then some ((r.1 - 0x100000) / 256) else none

/-- Codec contexts of class LIVE that run. -/
def State.liveCtxs (s : State) : List Nat := (s.running 1).filter fun c => s.cClass c = 0

/-- Whether a Crossing group carries a port with an enabled LIVE queue. -/
def State.xcvLive (s : State) (g : Nat) : Bool :=
  s.enabledQueues.any fun q => s.qClass q = 0 && (s.portOf q).any fun p => p / 2 = g

/-- Whether a Landing group is the source of a running LIVE stream. -/
def State.lndLive (s : State) (g : Nat) : Bool := s.liveCtxs.any fun c => !s.cDec c && (s.gang (s.cSrc c)).contains g

/-- The domain serves LIVE. -/
def State.servesLive (s : State) (d : Nat) : Bool :=
  if 8 ≤ d ∧ d ≤ 9 then d - 8 = s.cod.rsv && s.liveCtxs ≠ []
  else if 10 ≤ d ∧ d ≤ 13 then s.liveRuns
  else if 14 ≤ d ∧ d ≤ 16 then s.lndLive (d - 14)
  else if 17 ≤ d ∧ d ≤ 20 then s.xcvLive (d - 17)
  else false

/-- Queues that running streams name. -/
def State.streamQueues (s : State) : List Nat :=
  ((s.running 0).map fun k => s.fld (Adr.FCT_S_RQ k) 0 12) ++ ((s.running 1).map s.cQueue) ++
  ((s.running 1).map fun c => s.fld (Adr.COD_C_IO c) 16 12) ++ ((s.running 2).map s.pInq) ++ ((s.running 2).map s.pOutq)

/-- A running stream names the Crossing group: one of its queues is sent or filled there. -/
def State.xcvNamed (s : State) (g : Nat) : Bool :=
  s.streamQueues.any fun q => q ≠ 0 &&
    ((s.portOf q).any (fun p => p / 2 = g) || (List.range 64).any fun ch => s.rxEn g ch && s.rxQueue g ch = q)

/-- A running stream names the Landing group. -/
def State.lndNamed (s : State) (g : Nat) : Bool :=
  ((s.running 0).any fun k => (s.gang (s.srcOf k)).contains g) ||
  ((s.running 1).any fun c => !s.cDec c && (s.gang (s.cSrc c)).contains g)

/-- The domain's engine has a slot or contexts, or a running stream names its group. -/
def State.domNamed (s : State) (d : Nat) : Bool :=
  if 3 ≤ d ∧ d ≤ 7 then s.fct.slots.contains (d - 3) && !s.isRetired (d - 3)
  else if 8 ≤ d ∧ d ≤ 9 then (s.ce (d - 8)).st ≠ 5 && s.ctxOn (d - 8) ≠ []
  else if 14 ≤ d ∧ d ≤ 16 then s.lndNamed (d - 14)
  else if 17 ≤ d ∧ d ≤ 20 then s.xcvNamed (d - 17)
  else false

def pstate (n : Nat) : PState := if n = 0 then .on else if n = 1 then .ret else .off

/-- Why a power request is refused, in the order of R424. -/
def State.powerCode (s : State) (d : Nat) (st : PState) : Nat :=
  if d = 0 ∨ !s.hasDom d then Code.badTarget
  else if st = .on then Code.done
  else if d = 1 ∨ d = 2 then Code.notNow
  else if s.servesLive d then Code.inUse
  else if s.domNamed d then Code.notNow
  else Code.done

/-! ### Transitions (R425 to R427) -/

/-- The registers of a domain return to their reset values. -/
def State.clearDomain (s : State) (d : Nat) : State :=
  { s with regs := s.regs.filter (fun (r : Nat × Word) => domOf r.1 ≠ d), force := s.force.filter fun (r : Nat × Word) => domOf r.1 ≠ d }

/-- The packets that a Crossing group's receive channels have open are discarded. -/
def State.rxDiscard (s : State) (g : Nat) : State :=
  iter (s.xg g).rx (fun (c : Nat × RxChan) s => match c.2.opn with
    | some o => if o.buf.isSome then s else s.rewindTo (s.rxQueue g c.1) o.clasp
    | none => s) s

/-- What a domain loses in OFF (R423, R287). -/
def State.goOff (s : State) (d : Nat) : State :=
  let s := if 14 ≤ d ∧ d ≤ 16 then s.lgOff (d - 14) else if 17 ≤ d ∧ d ≤ 20 then s.rxDiscard (d - 17) else s
  let s := if 10 ≤ d ∧ d ≤ 13 then s.dmcOff (d - 10) else s
  let s := s.clearDomain d
  if 3 ≤ d ∧ d ≤ 7 then s.modEng (d - 3) fun x => { FEngine.fresh with st := x.st }
  else if 8 ≤ d ∧ d ≤ 9 then s.modCe (d - 8) fun x => { CEngine.fresh with st := x.st }
  else if 17 ≤ d ∧ d ≤ 20 then s.setXg (d - 17) XGroup.fresh
  else if d = 21 then s.setReg Adr.HST_PCIE_STAT 0 else s

/-- What a domain does on its way to RET: its links go down, its DRAM is held in self-refresh. -/
def State.goRet (s : State) (d : Nat) : State :=
  if 10 ≤ d ∧ d ≤ 13 then s.dmcRet (d - 10)
  else if 14 ≤ d ∧ d ≤ 16 then
    s.lgStop (d - 14) fun x => { x with
      st := 0, lock := 0, ask := none, lost := none, narrow := false, next := none, pic := none, row := none, info := none, blks := [] }
  else if 17 ≤ d ∧ d ≤ 20 then s.xgRestart (d - 17)
  else if d = 21 then s.setReg Adr.HST_PCIE_STAT 0 else s

def State.goOn (s : State) (d : Nat) : State := if 10 ≤ d ∧ d ≤ 13 then s.dmcBack (d - 10) else s

/-- TRANS_DONE: the state is reached, its request completes, and a pending target begins (R425, R427). -/
def State.transDone (s : State) (d : Nat) : State :=
  let x := s.domain d
  if !(x.phase = .entering || x.phase = .exiting) then s
  else
    let s := match x.st, x.target with
      | .on, .ret => s.goRet d
      | .on, .off => s.goOff d
      | .ret, .off => s.goOff d
      | .off, .ret => (s.goOn d).goRet d
      | .ret, .on => s.goOn d
      | .off, .on => s.goOn d
      | _, _ => s
    let s := s.setDomain d { s.domain d with st := x.target, phase := .stable, by_ := none, pend := none, forced := false }
    let s := (s.raise Adr.PWR_EVT 0).occur 0xE3
    let s := match x.by_ with
      | some b => s.powerDone d b Code.done
      | none => s
    match x.pend with
    | some (t, b) => if t = x.target then s.powerDone d b Code.done else s.powerBegin d t b
    | none => s

/-- DRAIN_END. -/
def State.drainEnd (s : State) (d : Nat) : State :=
  let x := s.domain d
  if x.phase = .draining then s.setDomain d { x with phase := .entering } else s

/-- The descriptor names the domain (R367). -/
def State.dmaInDomain (s : State) (k : Nat) (d : List Word) (dom : Nat) : Bool :=
  if dom = 21 then dHost d || s.ringLoc k = 0
  else 10 ≤ dom && dom ≤ 13 && (dSrcKind d = 1 || dDstKind d = 1 || s.ringLoc k = 1)

/-- DRAIN_TIMEOUT: the descriptors in flight that name the domain are aborted (R367, R427). -/
def State.drainTimeout (s : State) (d : Nat) : State :=
  let x := s.domain d
  if x.phase ≠ .draining then s
  else
    let s := iter (List.range s.nDma) (fun k s => match (s.dch_ k).cur with
      | some c => if s.dmaInDomain k c d then s.dmaAbort k else s
      | none => s) s
    (((s.bump Adr.PWR_CNT_DRAINABORT).raise Adr.PWR_EVT 1)).drainEnd d

/-- WAKE of a Landing group (R68, R429). -/
def State.wake (s : State) (g : Nat) : State :=
  if s.nLnd ≤ g ∨ (s.domain (14 + g)).st = .on then s
  else
    let s := (s.raise (Adr.LND_EVT g) 9).raise Adr.PWR_EVT 2
    if s.flag Adr.PWR_WAKE g then s.powerReq (14 + g) .on .wake else s

/-- PWR_D_STAT (R445). -/
def pstateNo : PState → Nat
  | .on => 0
  | .ret => 1
  | .off => 2

def State.pwrStat (s : State) (d : Nat) : Nat :=
  let x := s.domain d
  let ph := match x.phase with
    | .stable => 0
    | .draining => 1
    | .entering => 2
    | .exiting => 3
  if !s.hasDom d then 0
  else pstateNo x.st + 4 * ph + (match x.pend with | some (t, _) => 16 * pstateNo t + 64 | none => 0) + 256 * x.last +
    65536 * x.lastBy

/-! ### Clocks (R414, R431 to R433) -/

/-- The PLL of a clock domain. -/
def pllOf (c : Nat) : Nat :=
  if 4 ≤ c ∧ c ≤ 8 then 1
  else if c = 9 ∨ c = 10 then 2
  else if 11 ≤ c ∧ c ≤ 14 then c - 8
  else if 15 ≤ c ∧ c ≤ 18 then c - 12
  else 0

/-- The PLL of a clock domain at the present operating point. -/
def State.pllNow (s : State) (c : Nat) : Nat :=
  if s.thm.od && 4 ≤ c && c ≤ 8 then 7 else if s.thm.od && (c = 9 || c = 10) then 8 else pllOf c

/-- The source of a clock domain: 0 the fast internal oscillator, 1 the crystal, 2 a PLL, 3 another. -/
def State.clkSrc (s : State) (c : Nat) : Nat :=
  tget (if c = 1 then 1 else if (19 ≤ c ∧ c ≤ 25) ∨ c = 27 ∨ c = 29 then 3 else 0) s.pll.src c

def State.setSrc (s : State) (c src : Nat) : State := { s with pll := { s.pll with src := tput s.pll.src c src } }

/-- The power domain of a clock domain. -/
def clkDom (c : Nat) : Nat :=
  if c = 2 then 1 else if c = 3 ∨ c = 28 then 2 else if 4 ≤ c ∧ c ≤ 8 then c - 1 else if 9 ≤ c ∧ c ≤ 10 then c - 1
  else if 11 ≤ c ∧ c ≤ 14 then c - 1 else if 15 ≤ c ∧ c ≤ 18 then c - 5 else if 19 ≤ c ∧ c ≤ 21 then c - 5
  else if 22 ≤ c ∧ c ≤ 25 then c - 5 else if c = 27 then 21 else 0

/-- Line rate of a Landing group in 1/100,000 Gbaud. -/
def State.lgBaud (s : State) (g : Nat) : Nat :=
  ([800000, 1250000, 1600000, 2578125, 2812500, 3200000] : List Nat).getD (s.fld (Adr.LND_CTL g) 3 3) 800000

/-- The frequency of a clock domain in MHz. -/
def State.clkMhz (s : State) (c : Nat) : Nat :=
  match s.clkSrc c with
  | 0 => if c = 1 then 25 else 400
  | 1 => 25
  | 2 =>
    if c = 2 then 800 else if c = 3 then 1000
    else if 4 ≤ c ∧ c ≤ 8 then (if s.thm.od then 1400 else 1200)
    else if c = 9 ∨ c = 10 then (if s.thm.od then 1150 else 1000)
    else if 11 ≤ c ∧ c ≤ 14 then tget 0 s.pll.vco (pllOf c) / 16
    else if 15 ≤ c ∧ c ≤ 18 then tget 0 s.pll.vco (pllOf c) / 2
    else if c = 26 then 500 else 200
  | _ =>
    if 19 ≤ c ∧ c ≤ 21 then s.lgBaud (c - 19) / 6600
    else if 22 ≤ c ∧ c ≤ 25 then s.xgBaud (c - 22) / 6600
    else if c = 27 then 500 else 50

/-- CLK_D_STAT. The clocks of a spare that is ON are gated (R128). -/
def State.clkStat (s : State) (c : Nat) : Nat :=
  let d := clkDom c
  if !s.hasDom d then 0
  else
    let hot := 3 ≤ d && d ≤ 7 && (s.eng (d - 3)).st = 4 && s.boot.done
    let run := (s.domain d).st = .on && (s.domain d).phase ≠ .entering && (s.domain d).phase ≠ .exiting && !hot
    let od := s.thm.od && 4 ≤ c && c ≤ 10 && s.clkSrc c = 2
    s.clkSrc c + 4 * b2n run + 8 * b2n od + 16 * (if s.clkSrc c = 2 then s.pllNow c else 0) + 65536 * s.clkMhz c

def State.pllStat (s : State) : Nat := s.pll.lock.foldl (fun a n => a + 2 ^ n) 0

def State.modPll (s : State) (f : Plls → Plls) : State := { s with pll := f s.pll }

/-- A PLL loses lock: its clock domains move to the fast internal oscillator (R433). -/
def State.pllUnlock (s : State) (n : Nat) : State :=
  if !s.pll.lock.contains n then s
  else
    let cs := (List.range 30).filter fun c => s.clkSrc c = 2 && s.pllNow c = n
    let s := s.modPll fun p => { p with lock := p.lock.filter (· ≠ n), lost := p.lost ++ cs.map fun c => (c, n), back := p.back.filter (· ≠ n) }
    let s := iter cs (fun c s => s.setSrc c 0) s
    ((s.bump Adr.CLK_CNT_UNLOCK).raise Adr.PWR_EVT 4).reportHw 2 4 0 n

/-- A PLL relocks, which it does only while the crystal runs. -/
def State.pllRelock (s : State) (n : Nat) : State :=
  if s.pll.lock.contains n || !s.pll.xtal then s
  else s.modPll fun p => { p with lock := p.lock ++ [n], back := p.back ++ [n] }

/-- At a tick the clock domains of the PLLs that have relocked switch back. -/
def State.clkTick (s : State) : State :=
  let go := s.pll.lost.filter fun x => s.pll.back.contains x.2
  let s := iter go (fun x s => s.setSrc x.1 2) s
  s.modPll fun p => { p with lost := p.lost.filter (fun x => !p.back.contains x.2), back := [] }

def State.xtalLost (s : State) : State :=
  if !s.pll.xtal then s
  else
    let s := (s.modPll fun p => { p with xtal := false }).setSrc 1 0
    let s := ((s.bump Adr.CLK_CNT_UNLOCK).raise Adr.PWR_EVT 5).reportHw 2 5 0
    iter s.pll.lock (fun n s => s.pllUnlock n) s

def State.xtalReturn (s : State) : State := (s.modPll fun p => { p with xtal := true }).setSrc 1 1

/-! ### Supply voltage (R434, R435, R443) -/

def State.modThm (s : State) (f : Thm → Thm) : State := { s with thm := f s.thm }

/-- PWR_AVS_CFG.OD_MV and the VDD_CORE target. -/
def State.odMv (s : State) : Nat := s.fld Adr.PWR_AVS_CFG 0 10
def State.vdd (s : State) : Nat := s.fld Adr.PWR_AVS_STAT 0 10

/-- The target is written over AVSBus. -/
def State.setVdd (s : State) (mv : Nat) : State := (s.setFld Adr.PWR_AVS_STAT 0 10 mv).emit (.avs mv)

/-- The device raises VDD_CORE for a pending entry into overdrive. -/
def State.odRaise (s : State) : State :=
  if s.thm.odRaised || s.thm.od then s
  else (s.modThm fun t => { t with odRaised := true, odReached := false }).setVdd s.odMv

/-- VDD_CORE returns to its nominal value. -/
def State.odLower (s : State) : State :=
  (s.modThm fun t => { t with odRaised := false, odReached := false }).setVdd s.thm.nominalMv

/-- Overdrive ends at the next tick; `own` where the device makes the end itself (R444). -/
def State.odStop (s : State) (own : Bool) : State :=
  if s.thm.od && s.thm.odEnd.isNone then s.modThm fun t => { t with odEnd := some own } else s

/-- AVS_LOOP. -/
def State.avsLoop (s : State) (e : AvsEnv) : State :=
  let s := s.setFld Adr.PWR_AVS_STAT 16 10 e.reported
  let s := if e.reached && s.thm.odRaised then s.modThm fun t => { t with odReached := true } else s
  let s := if e.fault then
      ((((s.modThm fun t => { t with avsHold := true }).raise Adr.PWR_EVT 3).reportHw 2 3 0)).odStop true
    else s
  if !s.flag Adr.PWR_LOOP 0 || s.thm.avsHold then s
  else
    let m := s.fld Adr.PWR_AVS_CFG 26 6
    let lo := if s.thm.od || s.thm.odRaised then max 650 (s.odMv - 50) else 650
    let v := if e.margin < m then s.vdd + 5 else if m + 4 < e.margin then s.vdd - 5 else s.vdd
    let v := min 900 (max lo v)
    if v = s.vdd then s
    else (s.setVdd v).modThm fun t => if t.od || t.odRaised then t else { t with nominalMv := v }

/-! ### The wear budget and overdrive (R441 to R444) -/

/-- THM_OD_CTL.BUDGET × 1,000 and USED, in ms. -/
def State.wearB (s : State) : Nat := 1000 * s.fld Adr.THM_OD_CTL 16 10
def State.wearUsed (s : State) : Nat := s.thm.bins.foldl (· + ·) 0

def State.odSpent (s : State) : Bool :=
  s.wearB = 0 || s.wearB < s.wearUsed + 1000 * s.fld Adr.THM_OD_CTL 8 8

/-- Why overdrive cannot be entered. -/
def State.odCode (s : State) : Nat := if s.odSpent || (95 : Int) ≤ s.thm.tj then Code.notNow else Code.done

def State.odEnter (s : State) : State := (s.modThm fun t => { t with od := true, odEnd := none }).raise Adr.THM_EVT 4

/-- At a tick overdrive ends where an end is due; VDD_CORE is lowered only then. -/
def State.odTick (s : State) : State :=
  match s.thm.odEnd with
  | none => s
  | some own =>
    let s := (s.modThm fun t => { t with od := false, odEnd := none }).odLower
    if own then s.raise Adr.THM_EVT 5 else s

/-- OD_MV is not reached within 2 ms: the pending request completes with TIMEOUT (R443). -/
def State.odTimeout (s : State) : State :=
  if s.thm.odRaised && !s.thm.odReached && !s.thm.od then
    let s := s.odLower
    iter ((s.winsOn fun k => k = .tick || k = .volt).filter fun w => s.winOp w = 0x31 && bit (s.winArg w 0) 0)
      (fun w s => s.winDone w Code.timeout) s
  else s

def State.wearBin (s : State) : State := s.modThm fun t => { t with bins := (0 :: t.bins).take 60 }

/-! ### Sensors and the thermal loop (R437 to R440) -/

/-- The fitted sensors. -/
def State.sensors (s : State) : List Nat := if s.fuse.m then [0, 1, 2, 5, 7, 8, 9] else List.range 12

/-- A reading that is valid. -/
def goodReading : Option Int → Bool
  | some v => -55 ≤ v && v ≤ 150
  | none => false

/-- THM_STAT's Tj and VALID fields, and THM_MAX. -/
def State.setTj (s : State) (tj : Int) (valid : Nat) : State :=
  let s := (s.modThm fun t => { t with tj := tj }).setFld Adr.THM_STAT 0 9 (toBits 9 tj)
  let s := s.setFld Adr.THM_STAT 16 12 valid
  if sext 9 (s.fld Adr.THM_MAX 0 9) < tj then s.setFld Adr.THM_MAX 0 9 (toBits 9 tj) else s

def maxInt (d : Int) (l : List Int) : Int := l.foldl (fun a b => if a < b then b else a) d

/-- Streams whose lists are enabled, by (kind, number), device work left out. -/
def State.runningLists (s : State) : List Nat := s.listsOn.filter fun l => s.listKind l ≠ 3

/-- The shutdown of R440. -/
def State.shutdown (s : State) : State :=
  let on := s.runningLists
  let s := iter on (fun l s => s.setFld (Adr.SEQ_L_CTL l) 0 1 0) s
  let s := iter (List.range s.nFct) (fun e s => (s.fctAbort e).2) s
  let s := { s with fct := { s.fct with streams := s.fct.streams.map fun (f : Nat × FStream) => (f.1, { f.2 with pics := [], resync := true }) } }
  let s := iter (List.range s.nCod) (fun e s => match (s.ce e).cur with
    | some c => (s.codAbort c).2
    | none => s) s
  let s := { s with cod := { s.cod with ctx := s.cod.ctx.map fun (c : Nat × Ctx) => (c.1, { c.2 with idrNext := true }) } }
  let ds := ((List.range s.nFct).map (3 + ·)) ++ ((List.range s.nCod).map (8 + ·))
  let s := iter ds (fun d s =>
    let x := s.domain d
    if x.st = .off ∧ x.phase = .stable then s
    else
      let s := match x.by_ with
        | some b => s.powerDone d b Code.aborted
        | none => s
      let s := match x.pend with
        | some (_, b) => s.powerDone d b Code.aborted
        | none => s
      (s.goOff d).setDomain d { s.domain d with
        st := .off, phase := .stable, target := .off, by_ := none, pend := none, forced := true }) s
  let s := s.modThm fun t => { t with shut := true, resume := false, stopped := on }
  (s.raise Adr.THM_EVT 2).reportHw 2 2 0

/-- SENSOR_READ. -/
def State.sensorRead (s : State) (rd : List (Option Int)) : State :=
  let val (i : Nat) : Option Int := (rd.getD i none)
  let s := iter s.sensors (fun i s =>
    let ok := goodReading (val i)
    let s := s.setRegN (Adr.THM_SENS i) (toBits 9 ((val i).getD (sext 9 (s.fld (Adr.THM_SENS i) 0 9))) + 32768 * b2n ok)
    if ok then s.modThm fun t => { t with bad := t.bad.filter (· ≠ i) }
    else if s.thm.bad.contains i then s
    else ((s.modThm fun t => { t with bad := t.bad ++ [i] }).raise Adr.THM_EVT 6).reportHw 2 6 0 i) s
  let good := s.sensors.filter fun i => goodReading (val i)
  let tj := maxInt (-256) (good.filterMap val)
  let tj := if good.length < (if s.fuse.m then 5 else 8) then maxInt 115 [tj] else tj
  let s := s.setTj tj (good.foldl (fun a i => a + 2 ^ i) 0)
  let s := if (95 : Int) ≤ tj then s.odStop true else s
  if (125 : Int) ≤ tj ∧ !s.thm.shut then s.shutdown
  else if tj < (100 : Int) ∧ s.thm.shut then
    (if s.flag Adr.THM_CTL 0 then s.modThm fun t => { t with resume := true } else s.modThm fun t => { t with shut := false, stopped := [] })
  else s

/-- The thermal class of an engine (R137, R438): 0 RSV, 1 RECORD, 2 BULK. -/
def State.thermClass (s : State) (e : Nat) : Nat :=
  if e < 5 then
    (if s.running 0 ≠ [] || (s.running 2).any (fun p => !s.pBulk p) then 1 else 2)
  else
    let cs := s.ctxOn (e - 5)
    if e - 5 = s.cod.rsv ∧ cs.any (fun c => s.cClass c = 0) then 0 else if cs.all (fun c => s.cClass c = 2) then 2 else 1

def State.engines (s : State) : List Nat := List.range s.nFct ++ (List.range s.nCod).map (5 + ·)

/-- Eighths at which an engine runs (THM_DUTY). -/
def State.duty (s : State) (e : Nat) : Nat := s.fld Adr.THM_DUTY (3 * e) 3 + 1

def State.setDuty (s : State) (e n : Nat) : State := s.setFld Adr.THM_DUTY (3 * e) 3 (n - 1)

/-- The next N of an engine at a junction temperature; `rec2` says that every RECORD engine is at 2. Below 115 °C the reserved
engine runs at 8 (R137, R439). -/
def nextDuty (tj h : Int) (cls n : Nat) (rec2 : Bool) : Nat :=
  if cls = 0 ∧ tj < 115 then 8
  else if tj < 105 - h then min 8 (n + 1)
  else if tj < 105 then n
  else if tj < 115 then (if cls = 2 then max 2 (n - 1) else n)
  else if tj < 125 then
    (if cls = 2 then 2 else if cls = 1 then max 2 (n - 1) else if rec2 then max 2 (n - 1) else n)
  else n

/-- THERMAL_LOOP: each millisecond the engines slow or gain, and time in overdrive counts (R439, R442, R444). -/
def State.thermalLoop (s : State) : State :=
  let tj := s.thm.tj
  let h : Int := (s.fld Adr.THM_CTL 8 4 : Nat)
  let rec2 := s.engines.all fun e => s.thermClass e ≠ 1 || s.duty e = 2
  let s := iter s.engines (fun e s => s.setDuty e (nextDuty tj h (s.thermClass e) (s.duty e) rec2)) s
  let slow := s.engines.any fun e => s.duty e < 8
  let s := if slow then s.bump Adr.THM_CNT_SLOW else s
  let s := if slow && !s.thm.slow then s.raise Adr.THM_EVT 0 else s
  let hot : Bool := if (115 : Int) ≤ tj then true else false
  let s := if hot && !s.thm.throttle then s.raise Adr.THM_EVT 1 else s
  let s := s.modThm fun t => { t with slow := slow, throttle := hot }
  if s.thm.od then
    let s := s.modThm fun t => match t.bins with
      | [] => { t with bins := [1] }
      | b :: l => { t with bins := (b + 1) :: l }
    if s.wearB ≤ s.wearUsed then s.odStop true else s
  else s

/-- At the tick after a shutdown has cooled: domains, RESUMED, and the streams, whose lists the tick's boundary starts (R440). -/
def State.thermalTick (s : State) : State :=
  if !(s.thm.shut && s.thm.resume) then s
  else
    let s := iter ((List.range 22).filter fun d => (s.domain d).forced) (fun d s => s.powerBegin d .on .dev) s
    let s := { s with seq := { s.seq with enables := s.seq.enables ++ s.thm.stopped.map fun l => (l, true) } }
    (s.modThm fun t => { t with shut := false, resume := false, stopped := [] }).raise Adr.THM_EVT 3

/-- THM_STAT.STATE. -/
def State.thmState (s : State) : Nat :=
  if s.thm.shut then 3 else if s.thm.throttle then 2 else if s.thm.slow then 1 else 0

end Sys2Proof.Machine
end

