-- ==== Sys2Proof/Machine/Flash.lean ====
section
/-! DEFINITION. The flash: host operations through BOOT_FL_OP, the appends to the repair log, and stored patches (R410, R411,
R420, R456). Readings are log 27. -/

namespace Sys2Proof.Machine

/-- Bytes of the flash (BOOT_FL_INFO). -/
def State.flashSize (s : State) : Nat := 131072 * s.fld Adr.BOOT_FL_INFO 0 16

def State.flRead (s : State) (a n : Nat) : List Byte := memRead 0xFF s.flash a n

def State.flWrite (s : State) (a : Nat) (l : List Byte) : State := { s with flash := memWrite 0xFF s.flash a l }

/-- Two byte ranges (address, length) overlap. -/
def overlaps (a n b m : Nat) : Bool := a < b + m && b < a + n

/-- Why a host operation is refused (R420): `len` bytes at `a` are the range of the operation. -/
def State.flCode (s : State) (op : Nat) : Nat :=
  let a := (s.reg Adr.BOOT_FL_ADDR).toNat
  let n := s.fld Adr.BOOT_FL_LEN 0 13
  let len := if op = 2 then 4096 else if op = 3 then 65536 else n
  if 4 ≤ op then Code.badOpcode
  else if (op = 2 && a % 4096 ≠ 0) || (op = 3 && a % 65536 ≠ 0) || (op < 2 && (n = 0 || 4096 < n)) || s.flashSize < a + len then
    Code.outOfRange
  else if s.boot.done && op ≠ 0 &&
      (overlaps a len s.boot.logOff s.boot.logLen || overlaps a len s.boot.paOff s.boot.paLen) then Code.inUse
  else Code.done

/-- BOOT_FL_BUF as bytes. -/
def State.flBuf (s : State) (n : Nat) : List Byte :=
  ((List.range (ceilDiv n 4)).flatMap fun i => leBytes 4 (s.z (Adr.BOOT_FL_BUF i)).toNat).take n

/-- Bytes into the head of BOOT_FL_BUF; the rest of a last word keeps its value. -/
def State.setFlBuf (s : State) (l : List Byte) : State :=
  iter (List.range (ceilDiv l.length 4)) (fun i s =>
    let old := leBytes 4 (s.z (Adr.BOOT_FL_BUF i)).toNat
    let new := (l.drop (4 * i)).take 4
    s.setRegN (Adr.BOOT_FL_BUF i) (leNat (new ++ old.drop new.length))) s

/-- A write of BOOT_FL_OP: the operation is refused with its code, or waits and runs in its turn. -/
def State.flIssue (s : State) (op : Nat) : State :=
  let c := s.flCode op
  if c ≠ Code.done then s.setFld Adr.BOOT_FL_RES 0 8 c
  else
    let a := (s.reg Adr.BOOT_FL_ADDR).toNat
    let n := s.fld Adr.BOOT_FL_LEN 0 13
    { s with flops := s.flops ++ [.host op a n (if op = 1 then s.flBuf n else [])] }

def FlOp.isHost : FlOp → Bool
  | .host .. => true
  | _ => false

/-- An operation of the device's own runs before the host's that wait, after the one in progress. -/
def State.flOwn (s : State) (o : FlOp) : State :=
  match s.flops with
  | [] => { s with flops := [o] }
  | x :: t => { s with flops := x :: (t.takeWhile fun y => !y.isHost) ++ [o] ++ t.dropWhile fun y => !y.isHost }

/-- BOOT_FL_RES. -/
def State.flRes (s : State) : Nat := s.fld Adr.BOOT_FL_RES 0 8 + 256 * b2n (s.flops.any (·.isHost))

/-- n bytes that the spec calls undefined. -/
def State.freshBytes (s : State) : Nat → List Byte × State
  | 0 => ([], s)
  | n + 1 =>
    let b := s.freshByte
    let r := b.2.freshBytes n
    (b.1 :: r.1, r.2)

/-- Programs bytes and reads them back: a bit is only cleared; where the array fails, its bytes are free. -/
def State.flProgram (s : State) (a : Nat) (l : List Byte) (ok : Bool) : Nat × State :=
  let s := if ok then s.flWrite a (((s.flRead a l.length).zip l).map fun (x : Byte × Byte) => x.1 &&& x.2)
    else
      let r := s.freshBytes l.length
      r.2.flWrite a r.1
  (if s.flRead a l.length = l then Code.done else Code.aborted, s)

def State.flErase (s : State) (a n : Nat) (ok : Bool) : Nat × State :=
  if ok then (Code.done, s.flWrite a (List.replicate n 0xFF))
  else
    let r := s.freshBytes n
    (Code.aborted, r.2.flWrite a r.1)

/-- Entries of the repair log up to the first that is all 0xFF (R410). -/
def State.logUsed (s : State) (off : Nat) : Nat → Nat
  | 0 => 0
  | n + 1 => if s.flRead off 16 = List.replicate 16 0xFF then 0 else 1 + s.logUsed (off + 16) n

/-- The 16 bytes of a log entry. -/
def State.logBytes (s : State) (e : List Byte) : List Byte :=
  let b := e ++ leBytes 4 s.flt.logSeq
  b ++ leBytes 4 (crc32c b)

/-- LOG_APPEND: the oldest entry that waits goes to the flash; where the log is full or absent it is not written (R456). -/
def State.logAppend (s : State) : State :=
  match s.flt.logq with
  | [] => s
  | e :: t =>
    let s := s.modFlt fun f => { f with logq := t }
    let waiting := (s.flops.filter fun o => match o with | .log _ => true | _ => false).length
    if s.boot.logLen / 16 ≤ s.logUsed s.boot.logOff (s.boot.logLen / 16) + waiting then s.fltEvt 7
    else
      let b := s.logBytes e
      (s.modFlt fun f => { f with logSeq := (f.logSeq + 1) % 2 ^ 32 }).flOwn (.log b)

/-- FLASH_OP_DONE: the operation in progress ends; `ok` is false where the flash array failed it. -/
def State.flDone (s : State) (ok : Bool) : State :=
  match s.flops with
  | [] => s
  | o :: t =>
    let s := { s with flops := t }
    match o with
    | .host op a n data =>
      let r : Nat × State := match op with
        | 0 => (Code.done, s.setFlBuf (s.flRead a n))
        | 1 => s.flProgram a data ok
        | 2 => s.flErase a 4096 ok
        | _ => s.flErase a 65536 ok
      r.2.setFld Adr.BOOT_FL_RES 0 8 r.1
    | .log e => (s.flProgram (s.boot.logOff + 16 * s.logUsed s.boot.logOff (s.boot.logLen / 16)) e ok).2
    | .patch w a data =>
      let r := s.flProgram a data ok
      let s := if r.1 = Code.done then r.2.raise Adr.SEQ_EVT 7 else r.2
      let s := if s.win.any fun (x : Nat × Window) => x.1 = w && x.2.wait = .patch then s.winDone w r.1 else s
      { s with boot := { s.boot with paEnd := max s.boot.paEnd (a + data.length) } }

/-! ### PATCH_SUBMIT (R222, R403, R404, R408, R411) -/

/-- The header checks 1 to 4 of an image or a stored patch (R403, R404); `grades` are the grades permitted, `cap` the
largest length. -/
def hdrCode (magic : List Byte) (grades : List Nat) (cap : Nat) (l : List Byte) : Nat :=
  let n (a k : Nat) : Nat := leNat ((l.drop a).take k)
  if l.take 5 ≠ magic ++ [1] then Code.configInvalid
  else if n 5 1 ≠ 1 || !grades.contains (n 6 1) then Code.configInvalid
  else if cap < n 8 4 then Code.tooLong
  else if n 8 4 % 8 ≠ 0 || n 8 4 < 312 then Code.configInvalid
  else if n 7 1 ≠ 0 || n 20 4 ≠ 0 || n 36 28 ≠ 0 || n 161 31 ≠ 0 then Code.configInvalid
  else Code.done

/-- Checks 5 and 6: the fused key's owner signed the image. -/
def State.signed (s : State) (l : List Byte) : Bool :=
  let pub := (l.drop 64).take 97
  Config.sha384 pub = s.fuse.keyHash && Config.onP384 pub &&
    Config.ecdsaVerify pub (Config.sha384 (l.take 192 ++ l.drop 288)) ((l.drop 192).take 96)

/-- Checks 5 to 7: the plaintext, or the code. -/
def State.openImage (s : State) (l : List Byte) : Except Nat (List Byte) :=
  let body := l.drop 288
  if !s.signed l then .error Code.authFail
  else match Config.gcmOpen ((l.drop 24).take 12) (l.take 192) (body.take (body.length - 16)) (body.drop (body.length - 16)) with
    | none => .error Code.authFail
    | some p => .ok p

/-- The ranges of a patch from byte 12 on: n of them, and what follows. -/
def patchRanges : Nat → List Byte → Option (List (Nat × List Word) × List Byte)
  | 0, l => some ([], l)
  | n + 1, l =>
    let a := leNat (l.take 2)
    let c := leNat ((l.drop 2).take 2) + 1
    if l.length < 4 + 4 * c || 65536 < a + c then none
    else
      let ws := (List.range c).map fun i => BitVec.ofNat 32 (leNat ((l.drop (4 + 4 * i)).take 4))
      match patchRanges n (l.drop (4 + 4 * c)) with
      | none => none
      | some (rs, rest) => some ((a, ws) :: rs, rest)

/-- A patch (R408) for a base version: PATCH_ID and its ranges. -/
def parsePatch (base : Nat) (l : List Byte) : Option (Nat × List (Nat × List Word)) :=
  let n (a k : Nat) : Nat := leNat ((l.drop a).take k)
  if l.length < 12 || l.take 4 ≠ [1, 0, 0, 0] || n 4 4 ≠ base || n 8 2 = 0 || n 10 2 = 0 || 256 < n 10 2 then none
  else match patchRanges (n 10 2) (l.drop 12) with
    | some (rs, []) => some (n 8 2, rs)
    | _ => none

/-- The records of a plaintext body (R405): type and payload, up to END, which ends the body; or the index of the record that
breaks the framing. `fuel` bounds them, and `i` is the index of the first. -/
def parseRecords : (fuel i : Nat) → List Byte → Except Nat (List (Nat × List Byte))
  | 0, i, _ => .error i
  | fuel + 1, i, l =>
    let t := leNat (l.take 2)
    let n := leNat ((l.drop 4).take 4)
    let whole := 8 + (n + 7) / 8 * 8
    if l.length < whole || (l.drop 2).take 2 ≠ [0, 0] || ((l.drop (8 + n)).take (whole - 8 - n)).any (· ≠ 0) then .error i
    else if t = 0xFFFF then (if n = 0 && l.length = 8 then .ok [(t, [])] else .error i)
    else match parseRecords fuel (i + 1) (l.drop whole) with
      | .error j => .error j
      | .ok rs => .ok ((t, (l.drop 8).take n) :: rs)

/-- Grades that a stored patch may name. -/
def State.patchGrades (s : State) : List Nat := [b2n s.fuse.m, 255]

/-- A stored patch object is good for the running base version: its patch, or the code (R404, R408, R411). -/
def State.openPatch (s : State) (base cap : Nat) (l : List Byte) : Except Nat (Nat × List (Nat × List Word)) :=
  let h := hdrCode [0x50, 0x56, 0x50, 0x54] s.patchGrades cap l
  if h ≠ Code.done then .error h
  else if leNat ((l.drop 8).take 4) ≠ l.length || leNat ((l.drop 16).take 4) ≠ 0 then .error Code.configInvalid
  else match s.openImage l with
    | .error c => .error c
    | .ok p => match parseRecords (p.length + 1) 0 p with
      | .ok [(5, q), (0xFFFF, _)] => match parsePatch base q with
        | some r => .ok r
        | none => .error Code.configInvalid
      | _ => .error Code.configInvalid

/-- A stored patch in the patch area: its length, and the object padded to a multiple of 16 bytes. -/
def storedPatch (l : List Byte) : List Byte := leBytes 4 l.length ++ l ++ List.replicate ((16 - l.length % 16) % 16) 0

/-- Room left in the running image's patch area, with the patches that wait for the flash taken off. -/
def State.patchEnd (s : State) : Nat := s.flops.foldl (fun e o => match o with
  | .patch _ a d => max e (a + d.length)
  | _ => e) s.boot.paEnd

/-- BOOT_PATCH's KiB free. -/
def State.patchFree (s : State) : Nat := sat 65535 ((s.boot.paOff + s.boot.paLen - s.boot.paEnd) / 1024)

end Sys2Proof.Machine
end

