-- ==== Sys2Proof/Machine/Views.lean ====
section
/-! DEFINITION. The registers that are views of the state: what a read of each returns (the chapters' register tables). An
address without a view reads the register map. -/

namespace Sys2Proof.Machine

/-- The low bits of flags, bit i from the i-th. -/
def maskOf (n : Nat) (p : Nat → Bool) : Nat := (List.range n).foldl (fun a i => a + b2n (p i) * 2 ^ i) 0

/-- GPIO[7:0] as they stand: the value driven where OE is set, else the outside level (R497). -/
def State.gpioIn (s : State) : Nat :=
  maskOf 8 fun i => if s.flag Adr.GLB_GPIO_OE i then s.flag Adr.GLB_GPIO_OUT i else s.gpio.getLsbD i

/-- GLB_TICK_STAT. -/
def State.tickStat (s : State) : Nat := b2n s.clk.holdover + 256 * (s.clk.lag % 256)

def State.sl (s : State) (l : Nat) : SList := tget SList.fresh s.seq.lists l

/-- SEQ_LS_STAT. -/
def State.lsStat (s : State) (l : Nat) : Nat :=
  let x := s.sl l
  let ev := match x.susp with
    | some (.event e, _) => e
    | _ => if x.st = 3 && x.enter then bits (s.z (Adr.SEQ_SCHED (2 * x.step))) 16 8 else 0
  x.st + 8 * b2n x.t + 16 * b2n x.fail + 32 * sat 15 x.owed + 65536 * ev

/-- SEQ_STAT. -/
def State.seqStat (s : State) : Nat := if s.boot.done then b2n s.seq.started + 256 * s.seq.cur.getD 255 else 0

/-- On-chip words of enabled queues (QF_STORE_USED). -/
def State.storeUsed (s : State) : Nat := s.enabledQueues.foldl (fun a q => a + s.qHead q + s.qTailW q) 0

/-- A queue's block: the words of its oldest untaken notice and of READ. -/
def State.qView (s : State) (q off : Nat) : Option Nat :=
  let x := s.queue q
  if off = 0x0C then some (Queue.stat s q)
  else if off = 0x10 then some (x.tail % 2 ^ 32)
  else if off = 0x14 then some (x.read % 2 ^ 32)
  else if off = 0x18 then some (x.rel % 2 ^ 32)
  else if off = 0x1C then some x.depth
  else if 0x60 ≤ off ∧ off < 0x70 then some (match x.oldest with
    | some p => if s.qCons q = 0 then noticeWord q p ((off - 0x60) / 4) else 0
    | none => 0)
  else if 0x80 ≤ off ∧ off < 0xA0 then some (match x.current with
    | some _ => if s.qCons q = 0 then leNat (((s.wordNow q (x.read / 32)).data.drop (off - 0x80)).take 4) else 0
    | none => 0)
  else if off = 0xA0 then some (if s.qCons q = 0 then x.rflags else 0)
  else none

/-- Every queue with a chain walk. -/
def State.walking (s : State) : Bool := s.qf.any fun (x : Nat × Queue) => x.2.walk

/-- BOOT_STAT. -/
def State.bootStat (s : State) : Nat :=
  s.boot.stage + 16 * s.boot.image + 64 * b2n s.fuse.testMode + 128 * s.boot.dirCopy

/-- The global and always-on blocks. -/
def State.viewAon (s : State) (a : Nat) : Option Nat :=
  if a = Adr.GLB_TICK_CNT_LO then some (s.clk.count % 2 ^ 32)
  else if a = Adr.GLB_TICK_CNT_HI then some (s.clk.count / 2 ^ 32)
  else if a = Adr.GLB_TICK_STAT then some s.tickStat
  else if a = Adr.GLB_HEALTH then some s.glbHealth
  else if a = Adr.GLB_GPIO_IN then some s.gpioIn
  else if Adr.PWR_D_STAT 0 ≤ a ∧ a < Adr.PWR_D_STAT 22 then some (s.pwrStat ((a - Adr.PWR_D_STAT 0) / 4))
  else if Adr.CLK_D_STAT 0 ≤ a ∧ a < Adr.CLK_D_STAT 30 then some (s.clkStat ((a - Adr.CLK_D_STAT 0) / 4))
  else if a = Adr.CLK_PLL_STAT then some s.pllStat
  else if a = Adr.THM_STAT then some (s.fld a 0 9 + 512 * s.thmState + 65536 * s.fld a 16 12)
  else if a = Adr.THM_OD_STAT then some (b2n s.thm.od + 2 * b2n s.odSpent)
  else if a = Adr.THM_WEAR then some s.wearUsed
  else if a = Adr.THM_WEAR_LEFT then some (s.wearB - s.wearUsed)
  else if a = Adr.FLT_STAT then some s.fltStat
  else if Adr.FLT_FIRST 0 ≤ a ∧ a < Adr.FLT_FIRST 8 then
    some (recWord (if s.flt.valid then s.flt.first else none) ((a - Adr.FLT_FIRST 0) / 4)).toNat
  else if Adr.FLT_LAST 0 ≤ a ∧ a < Adr.FLT_LAST 8 then some (recWord s.flt.last ((a - Adr.FLT_LAST 0) / 4)).toNat
  else if Adr.FLT_HIST_REC 0 ≤ a ∧ a < Adr.FLT_HIST_REC 8 then
    some (recWord (s.flt.ring[s.fld Adr.FLT_HIST_IDX 0 8]?) ((a - Adr.FLT_HIST_REC 0) / 4)).toNat
  else if Adr.FLT_UNIT 0 ≤ a ∧ a < Adr.FLT_UNIT 23 then some (s.unitWord ((a - Adr.FLT_UNIT 0) / 4))
  else if a = Adr.FLT_INJ_CTL then some ((s.reg a).toNat + 256 * b2n s.flt.armed)
  else if a = Adr.FLT_INJ_STAT then some (b2n s.injUnlocked + 2 * b2n s.flt.armed)
  else if a = Adr.BOOT_STAT then some s.bootStat
  else if a = Adr.BOOT_PATCH then some (s.fld a 0 8 + 65536 * s.patchFree)
  else if a = Adr.BOOT_FL_RES then some s.flRes
  else if a = Adr.PTP_STAT then some s.ptpStat
  else if a = Adr.PTP_TIME_NS then some (s.ptpNow % 1000000000)
  else if a = Adr.PTP_TIME_S_LO then some (s.ptp.secs % 2 ^ 32)
  else if a = Adr.PTP_TIME_S_HI then some (s.ptp.secs / 2 ^ 32)
  else none

/-- The interrupt controller. -/
def State.viewIc (s : State) (a : Nat) : Option Nat :=
  let o := a - 0x30000
  if o < 0x10000 ∧ o % 0x1000 = 0x108 ∧ (o < 0x4000 ∨ (0x8000 ≤ o ∧ o < 0xC000)) then
    some (b2n (s.ic.lines.getLsbD (2 * (o / 0x1000 % 4) + b2n (0x8000 ≤ o))))
  else if 0x4400 ≤ o ∧ o < 0x4420 then some (maskOf 32 fun b => s.isPending (8 * (o - 0x4400) + b))
  else if 0x4500 ≤ o ∧ o < 0x4520 then some (maskOf 32 fun b => s.isActive (8 * (o - 0x4500) + b))
  else if 0x4600 ≤ o ∧ o < 0x4620 then some (maskOf 32 fun b => s.level (8 * (o - 0x4600) + b))
  else none

/-- The sequencer. -/
def State.viewSeq (s : State) (a : Nat) : Option Nat :=
  let l := (a - 0x81000) / 16
  if a = Adr.SEQ_STAT then some s.seqStat
  else if 0x81000 ≤ a ∧ a < 0x81800 then
    (if a % 16 = 0 then some (s.lsStat l)
     else if a % 16 = 4 then some ((s.sl l).pc + 65536 * (s.sl l).step)
     else if a % 16 = 8 then some (s.sl l).used
     else none)
  else none

/-- The fabric and the pools. -/
def State.viewFab (s : State) (a : Nat) : Option Nat :=
  if a = Adr.QF_STAT then some (2 * b2n s.walking)
  else if a = Adr.QF_STORE_USED then some s.storeUsed
  else if a < 0x200000 then s.qView ((a - 0x100000) / 256) (a % 256)
  else if Adr.BP_P_FREE 0 ≤ a ∧ a < 0x200180 ∧ a % 64 = 0x20 then some (s.poolFree ((a - 0x200000) / 64))
  else none

/-- The egress scheduler and the DMA. -/
def State.viewSch (s : State) (a : Nat) : Option Nat :=
  let p := (a - 0x301000) / 256
  if a = Adr.SCH_WHEEL then some s.schWheel
  else if 0x301000 ≤ a ∧ a < 0x301800 then
    (if a % 256 = 4 then some (s.byteT p) else if a % 256 = 8 then some (s.maxUnit p) else if a % 256 = 0x14 then some (s.schStat p)
     else none)
  else if 0x310000 ≤ a ∧ a < 0x330000 ∧ a % 32 = 12 then some (s.balReg ((a - 0x310000) / 32))
  else if a = Adr.DMA_STAT then some (b2n ((List.range s.nDma).any s.dmaBusy))
  else if 0x401000 ≤ a ∧ a < 0x403000 then
    (if a % 256 = 8 then some (s.dmaStat ((a - 0x401000) / 256))
     else if a % 256 = 0x20 then some (s.dmaHead ((a - 0x401000) / 256)) else none)
  else none

/-- The memory controllers. -/
def State.viewDmc (s : State) (a : Nat) : Option Nat :=
  let d := (a - 0x500000) / 0x40000
  let o := (a - 0x500000) % 0x40000
  let ch := 4 * d + (o - 0x100) / 64
  if a = Adr.DMC_G_CAP then some (s.dramCap / 2 ^ 20)
  else if o = 0 then some (s.dmcStat d)
  else if o = 0x20 then some (s.dk d).ptr
  else if 0x100 ≤ o ∧ o < 0x200 ∧ o % 64 = 0 then some (s.dc ch).owed
  else if 0x100 ≤ o ∧ o < 0x200 ∧ o % 64 = 0x24 then some (s.dmcPpr ch)
  else none

/-- The links. -/
def State.viewLinks (s : State) (a : Nat) : Option Nat :=
  if a < 0x680000 then
    let g := (a - 0x600000) / 0x20000
    let o := (a - 0x600000) % 0x20000
    if o = 0x18 then some (s.lndStat g) else if o = 0x1C then some (s.lndMap g) else if o = 0x14 then some (s.lndEqStat g) else none
  else
    let g := (a - 0x680000) / 0x20000
    let o := (a - 0x680000) % 0x20000
    if o = 4 then some (s.xcvStat g) else if o = 0x38 then some (s.xcvTxSeq g) else if o = 0x3C then some (s.xg g).rxSeq else none

/-- The engines. -/
def State.viewEng (s : State) (a : Nat) : Option Nat :=
  if a = Adr.FCT_SLOTS then some s.fctSlots
  else if a = Adr.COD_GLB_STAT then some s.codGlbStat
  else if a < 0xD00000 then
    let e := (a - 0x800000) / 0x100000
    let o := (a - 0x800000) % 0x100000
    if o = 0 then some (s.fctStat e) else if o = 8 then some (s.fctWindow e) else if o = 12 then some (s.fctLeft e) else none
  else if (a - 0xD00000) % 0x100000 = 0 then some (s.codStat ((a - 0xD00000) / 0x100000))
  else none

/-- What a read of a register that is a view returns. -/
def State.view (s : State) (a : Nat) : Option Nat :=
  if a < 0x30000 then s.viewAon a
  else if a < 0x40000 then s.viewIc a
  else if a < 0x50000 then none
  else if a < 0x80000 then s.viewAon a
  else if a < 0x100000 then s.viewSeq a
  else if a < 0x300000 then s.viewFab a
  else if a < 0x500000 then s.viewSch a
  else if a < 0x600000 then s.viewDmc a
  else if a < 0x800000 then s.viewLinks a
  else s.viewEng a

/-- The value of a register as software sees it. -/
def State.value (s : State) (a : Nat) : Word :=
  match s.view a with
  | some v => BitVec.ofNat 32 v
  | none => s.reg a

end Sys2Proof.Machine
end

