-- ==== Sys2Proof/Machine/Reset.lean ====
section
/-! DEFINITION. Device resets: power-on, RESET_N and RESTART (R398, R442, R497), and the reset between two attempts to boot
(R418). Readings are log 28. -/

namespace Sys2Proof.Machine

/-- The record windows keep the newest records, whose tests have stopped. -/
def Flt.kept (f : Flt) : Flt :=
  { Flt.fresh with
    valid := f.valid, pin := f.pin, first := f.first, last := f.last, ring := f.ring, made := f.made, logSeq := f.logSeq }

/-- The state after a reset of the device. Local time runs on, the temperature and the levels outside stay, and so do the
flash and what was sent and read. Of the registers only the listed ones keep their values; DRAM contents are lost. -/
def State.resetKeeping (s : State) (keep : List Nat) : State :=
  { State.reset with
    fuse := s.fuse
    regs := s.regs.filter fun (r : Nat × Word) => keep.contains r.1
    gpio := s.gpio
    clk := { Clk.fresh with now := s.clk.now }
    thm := { Thm.fresh with tj := s.thm.tj }
    pll := { Plls.fresh with xtal := s.pll.xtal }
    flash := s.flash
    fct := Fct.fresh s.fuse.m
    ptp := { Ptp.fresh with at_ := s.clk.now }
    rd := s.rd
    sent := s.sent
    freeCtr := s.freeCtr
    pending := s.pending }

/-- Power-on, RESET_N and a supply that is low: every register returns to its reset value (R398); `held` while a supply is
low. -/
def State.hardReset (s : State) (held : Bool) : State :=
  let s := s.resetKeeping []
  { s with boot := { s.boot with held := held } }

/-- Registers that RESTART keeps: BOOT_CTL (its NEXT; RESTART reads 0), BOOT_CNT and the GPIO registers (R398, R497). -/
def keptByRestart : List Nat := [Adr.BOOT_CTL, Adr.BOOT_CNT, Adr.GLB_GPIO_OUT, Adr.GLB_GPIO_OE]

/-- What a RESTART keeps beside registers: the running PTP time, the fault history and the wear accumulator (R398, R442). -/
def State.softReset (s : State) (keep : List Nat) : State :=
  let t := s.resetKeeping keep
  { t with
    ptp := { Ptp.fresh with base := s.ptpNow, at_ := s.clk.now }
    flt := s.flt.kept
    thm := { t.thm with bins := s.thm.bins } }

/-- RESTART (R381, R398): the device resets, and boots again when the boot ROM runs. -/
def State.restart (s : State) : State := s.softReset keptByRestart

/-- The reset between two attempts to boot (R418): what they latched in the boot status registers stays. -/
def State.attemptReset (s : State) : State :=
  let t := s.softReset (keptByRestart ++ [Adr.BOOT_ERR_A, Adr.BOOT_ERR_B, Adr.BOOT_ERR_ADDR, Adr.BOOT_FL_INFO])
  { t with boot := { Boot.fresh with
      tried := s.boot.tried, dirCopy := s.boot.dirCopy, us := s.boot.us, logOff := s.boot.logOff, logLen := s.boot.logLen } }

end Sys2Proof.Machine
end

