-- ==== Sys2Proof/Machine/Requests.lean ====
section
/-! DEFINITION. Host requests (R377 to R383): the checks of a record in their order, what each request does at once or at a
tick, and the request windows' doorbell. Readings are log 29. -/

namespace Sys2Proof.Machine

/-! ### Streams by TARGET -/

/-- The kind of list that a TARGET kind names: 1 record streams, 2 contexts, 3 playback streams. -/
def State.configured (s : State) (kind i : Nat) : Bool :=
  if kind = 1 then i < 4 && s.flag (Adr.FCT_S_CTL i) 0
  else if kind = 2 then s.cEn i
  else s.pEn i

/-- A LIVE or RECORD stream runs. -/
def State.urgentRuns (s : State) : Bool := s.listsOn.any fun l => s.listKind l ≠ 3 && s.listClass l ≤ 1

def State.anyRuns (s : State) : Bool := s.runningLists ≠ []

/-! ### Values that a rate change may set (R117, R151, R154, R167) -/

/-- A valid Facet geometry (R54). -/
def Lay.ok (l : Lay) (depth : Nat) : Bool :=
  256 ≤ l.w && l.w ≤ 16384 && l.w % 16 = 0 && 16 ≤ l.h && l.h ≤ 12288 && l.h % 16 = 0 && 10 ≤ depth && depth ≤ 18

/-- FLAT costs of every segment row of a picture (R117). -/
def Lay.flatTotal (l : Lay) (depth : Nat) : Nat :=
  l.rows * ((List.range l.ns).foldl (fun a m => a + flatCost depth (l.nbOf m)) 0)

/-- Whether a slot size meets R117. -/
def State.slotOk (s : State) (k v : Nat) : Bool :=
  let l := s.lay k
  let depth := s.fld (Adr.LND_FMT (s.srcOf k)) 0 5
  l.ok depth && v % 4 = 0 && ceilDiv (l.w * l.h * 18) 128 ≤ v && v ≤ l.w * l.h * 18 / 24 &&
    4164 + 4 * l.segs + l.flatTotal depth ≤ v

/-- CTUs of the longest CTU row of a context's slices. -/
def State.longRow (s : State) (c : Nat) : Nat := if s.cSplit c then max (s.cCols c 0) (s.cCols c 1) else s.cCols c 0

/-- MAXSLICE is 0 or at least the floor cost of the longest row (R154). -/
def State.sliceOk (s : State) (c v : Nat) : Bool := v = 0 || 48 + 8 * s.longRow c ≤ v

/-- Tick values (R18, R22), as GLB_TICK_CTL and GLB_TICK_RATE hold them; SENS_GRP = 0b11 is reserved under every source. -/
def State.tickOk (s : State) (ctl rate : Word) : Bool :=
  let num := bits rate 0 16
  let den := bits rate 16 16
  num ≠ 0 && den ≠ 0 && den ≤ num && num ≤ 1000 * den && 1 ≤ bits ctl 8 8 && bits ctl 8 8 ≤ 64 &&
    bits ctl 2 2 ≠ 3 && !(bits ctl 0 2 = 1 && s.nLnd ≤ bits ctl 2 2)

/-! ### Queues in use (R245) -/

/-- An enabled stream, DMA channel or port names the queue, the lanes of the Facet engines left out. -/
def State.queueUsed (s : State) (q : Nat) : Bool :=
  ((List.range 4).any fun k => s.flag (Adr.FCT_S_CTL k) 0 && s.fld (Adr.FCT_S_RQ k) 0 12 = q) ||
  ((List.range s.nCtx).any fun c => s.cEn c && (s.cQueue c = q || (s.cDec c && s.fld (Adr.COD_C_IO c) 16 12 = q))) ||
  ((List.range 4).any fun p => s.pEn p && (s.pInq p = q || s.pOutq p = q)) ||
  ((List.range s.nDma).any fun k => s.dmaNames k q) ||
  (s.qCons q = 1 && s.flag (Adr.SCH_P_CTL (s.qConsIdx q)) 0) ||
  ((List.range s.nXcv).any fun g => s.flag (Adr.XCV_CTL g) 0 &&
    ((List.range 64).any fun ch =>
      (s.flag (Adr.XCV_TXCH g ch) 15 && s.fld (Adr.XCV_TXCH g ch) 0 12 = q) || (s.rxEn g ch && s.rxQueue g ch = q))) ||
  ((List.range s.nXcv).any fun g => (List.range 2).any fun e => s.flag (Adr.XCV_E_CTL g e) 0 &&
    (s.fld (Adr.XCV_E_RXQ g e) 0 12 = q ||
      (List.range 8).any fun f => s.flag (Adr.XCV_E_FILT g e f) 31 && s.fld (Adr.XCV_E_FILT g e f) 16 12 = q))

/-- An enabled stream, list, DMA channel or port names the queue, as a record stream names the lane queues. -/
def State.queueNamed (s : State) (q : Nat) : Bool :=
  s.queueUsed q ||
  ((List.range 4).any fun k => s.flag (Adr.FCT_S_CTL k) 0) &&
    (List.range s.nFct).any fun e => s.laneQ e 0 ≤ q && q < s.laneQ e 0 + 8

/-- Why a host's reset of a queue is refused (R245, R503). -/
def State.qResetCode (s : State) (q : Nat) : Nat :=
  match s.qRefuse q with
  | some c => c
  | none => if s.queueNamed q then Code.inUse else Code.done

/-- The chain walk ends: a waiting QUEUE_RESET and a host operation complete (R245, R246). -/
def State.walkEnd (s : State) (q : Nat) : State :=
  if !(s.queue q).walk then s
  else
    let s := s.walkDone q
    let s := if s.flag (Adr.QF_Q_OPRES q) 8 then s.setRegN (Adr.QF_Q_OPRES q) Code.done else s
    iter (s.winsOn fun k => k = .walk q) (fun w s => s.winDone w Code.done) s

/-! ### Checks (R378 step 5) -/

/-- The kinds that an opcode accepts; none for a reserved opcode (R381). -/
def opKinds (op : Nat) : Option (List Nat) :=
  if op = 0x00 ∨ op = 0x01 ∨ op = 0x31 ∨ op = 0x40 ∨ op = 0x50 ∨ op = 0x51 ∨ op = 0x60 ∨ op = 0x61 ∨ op = 0x70 then some [0]
  else if op = 0x10 ∨ op = 0x11 then some [1, 2, 3]
  else if op = 0x12 ∨ op = 0x13 then some [1, 2]
  else if op = 0x20 ∨ op = 0x21 then some [4, 5, 8]
  else if op = 0x22 then some [6, 7]
  else if op = 0x30 then some [9]
  else if op = 0x41 then some [10]
  else none

/-- An opcode that applies at a tick (R379). -/
def opTick (op : Nat) : Bool := op = 0x10 || op = 0x11 || op = 0x13 || op = 0x31 || op = 0x40

/-- The unit that a TARGET names is present, and a stream configured (R380). -/
def State.hasTarget (s : State) (kind i : Nat) : Bool :=
  match kind with
  | 0 => i = 0
  | 4 => i < s.nFct
  | 5 => i < s.nCod
  | 6 => i < s.nLnd
  | 7 => i < s.nXcv
  | 8 => i < s.nCh
  | 9 => s.hasDom i
  | 10 => i < 4096
  | _ => kind < 4 && s.configured kind i

/-- TARGET's check, with the kinds, directions and queues that an opcode does not accept. -/
def State.targetOk (s : State) (op kind i : Nat) : Bool :=
  ((opKinds op).getD []).contains kind && s.hasTarget kind i &&
  !((op = 0x12 || op = 0x13) && kind = 2 && s.cDec i) && !(op = 0x30 && i = 0) && !(op = 0x41 && i < 16)

/-- The power domain of a TARGET's unit, where the opcode asks for one that is ON. -/
def targetDom (kind i : Nat) : Option Nat :=
  match kind with
  | 4 => some (3 + i)
  | 5 => some (8 + i)
  | 6 => some (14 + i)
  | 7 => some (17 + i)
  | 8 => some (10 + i / 4)
  | _ => none

def allOnes : Word := 0xFFFFFFFF

/-- A value of SET_RATE fits its field, or leaves it unchanged. -/
def fits (v : Word) (w : Nat) : Bool := v = allOnes || v.toNat < 2 ^ w

/-- The arguments' check (R381, R460, R461). An argument that names an absent unit is refused with BAD_TARGET (R5): an engine of a
FENCE_ENG, the Landing group of a SET_TICK. -/
def State.argCode (s : State) (w op kind : Nat) : Nat :=
  let a (i : Nat) : Word := s.winArg w i
  let n (i : Nat) : Nat := (a i).toNat
  let bad :=
    match op with
    | 0x01 => 4 ≤ n 0 || 128 ≤ n 1
    | 0x13 => kind = 2 && !(fits (a 0) 24 && fits (a 1) 28 && fits (a 2) 24)
    | 0x30 => 3 ≤ n 0
    | 0x31 => 2 ≤ n 0
    | 0x40 => (a 0 &&& 0xFFFF0080) ≠ 0
    | 0x50 => n 2 = 0 || 1048576 < n 2
    | 0x51 => 2 ≤ n 0
    | 0x60 => (a 0 &&& 0xFFFF00FE) ≠ 0 || (bit (a 0) 0 && n 1 % 32 ≠ 0)
    | 0x61 => 8 ≤ n 0
    | _ => false
  if bad then Code.outOfRange
  else if op = 0x01 && n 0 = 2 && (List.range 7).any (fun e => bit (a 1) e && !(if e < 5 then e < s.nFct else e - 5 < s.nCod)) then
    Code.badTarget
  else if op = 0x40 && bits (a 0) 0 2 = 1 && bits (a 0) 2 2 ≠ 3 && s.nLnd ≤ bits (a 0) 2 2 then Code.badTarget
  else if op = 0x40 && !s.tickOk (a 0) (a 1) then Code.configInvalid
  else Code.done

/-- Bytes that a fault export to DRAM writes, and where (R460). -/
def State.exportWant (s : State) (w : Nat) : Nat × Nat :=
  (32 * min (bits (s.winArg w 0) 8 8 + 1) s.flt.ring.length, (s.winArg w 1).toNat + 2 ^ 32 * (s.winArg w 2).toNat)

/-- The state's check for the request that stands in a window (R381). -/
def State.stateCode (s : State) (w op kind i : Nat) : Nat :=
  let a (j : Nat) : Word := s.winArg w j
  let run := kind ≤ 3 && s.streamRuns (kind - 1) i
  match op with
  | 0x10 =>
    if run then Code.notNow
    else if (kind = 2 && ((s.cx i).parked || s.codInService = [])) || (kind ≠ 2 && s.liveSlots = []) then Code.noCapacity
    else Code.done
  | 0x11 => if run then Code.done else Code.notNow
  | 0x12 => if run then Code.done else Code.notNow
  | 0x13 =>
    if kind = 1 then
      (if s.fMode i ≠ 2 then Code.notNow else if s.slotOk i (a 0).toNat || a 0 = allOnes then Code.done else Code.outOfRange)
    else
      (if s.fld (Adr.COD_C_RC i) 0 3 = 0 then Code.notNow
       else if a 2 = allOnes || s.sliceOk i (a 2).toNat then Code.done else Code.outOfRange)
  | 0x20 =>
    if kind = 4 then
      (if s.isRetired i then Code.notNow
       else if (s.running 0 ≠ [] || s.running 2 ≠ []) && (s.liveSlots.map fun x => s.fct.slots.getD x 7) = [i] &&
          !(s.flag Adr.FCT_GLB_CTL 2 && s.spare.isSome) then Code.noCapacity
       else Code.done)
    else if kind = 5 then
      (if (s.ce i).st = 5 then Code.notNow else if s.cod.rsv = i && s.liveCtxs ≠ [] then Code.inUse else Code.done)
    else if s.liveRuns then Code.inUse else s.retireChanCode i
  | 0x21 => match fltUnit (target kind i) with
    | some u => if s.repairable u then Code.done else Code.notNow
    | none => Code.notNow
  | 0x22 => if (if kind = 6 then s.lndLive i else s.xcvLive i) then Code.inUse else Code.done
  | 0x30 => s.powerCode i (pstate (bits (a 0) 0 2))
  | 0x31 => if bit (a 0) 0 then s.odCode else Code.done
  | 0x40 => if s.anyRuns then Code.inUse else Code.done
  | 0x41 => s.qResetCode i
  | 0x50 =>
    let at_ := (a 0).toNat + 2 ^ 32 * (a 1).toNat
    if s.dramTop < at_ + (a 2).toNat then Code.outOfRange
    else if !s.dramOn then Code.domainOff
    else match s.openPatch s.boot.ucode 7340032 (memRead 0 s.dram at_ (a 2).toNat) with
      | .error c => c
      | .ok _ =>
        if s.boot.paOff + s.boot.paLen < s.patchEnd + (storedPatch (memRead 0 s.dram at_ (a 2).toNat)).length then Code.outOfRange
        else Code.done
  | 0x51 => if s.urgentRuns && !bit (a 0) 0 then Code.inUse else Code.done
  | 0x60 =>
    if !bit (a 0) 0 then Code.done
    else
      let e := s.exportWant w
      if s.dramTop < e.2 + e.1 then Code.outOfRange
      else if !s.dramOn then Code.domainOff
      else if (List.range' e.2 e.1).any fun b => !s.dramMayWrite 10 b then Code.notOwner
      else Code.done
  | _ => Code.done

/-- The checks of a record in their order (R378 step 5). -/
def State.reqCode (s : State) (w : Nat) : Nat :=
  let op := s.winOp w
  let kind := s.winTarget w / 4096
  let i := s.winTarget w % 4096
  if (opKinds op).isNone then Code.badOpcode
  else if !s.targetOk op kind i then Code.badTarget
  else if s.winReq w 1 ≠ 0 then Code.configInvalid
  else
    let c := s.argCode w op kind
    if c ≠ Code.done then c
    else if (targetDom kind i).any fun d => !s.domRuns d then Code.domainOff
    else s.stateCode w op kind i

/-! ### What each request does -/

/-- Key requests of a stream wait for the next tick (R112, R147). -/
def State.askKey (s : State) (kind i : Nat) : State :=
  if kind = 1 then s.modFs i fun x => { x with keyAsked := true } else s.modCx i fun x => { x with keyAsked := true }

/-- RETIRE: ANS0 is the slot emptied, or 7. -/
def State.doRetire (s : State) (kind i : Nat) : Nat × State :=
  if kind = 4 then
    let r := s.retireFct i
    (r.1, r.2.noteRetired i)
  else if kind = 5 then (7, (s.retireCod i).noteRetired (5 + i))
  else (7, s.evacuate i)

/-- RETRAIN: the group trains again from DOWN. -/
def State.doRetrain (s : State) (kind i : Nat) : State :=
  if kind = 6 then ((s.goRet (14 + i)).bcMsg i 4 0).2 else s.goRet (17 + i)

/-- Copies records to queue 4, oldest first, until one cannot be taken: how many were taken. -/
def State.exportQueue (s : State) : List FRec → Nat × State
  | [] => (0, s)
  | r :: t =>
    let e := s.exportRec r
    if e.1 then
      let x := e.2.exportQueue t
      (x.1 + 1, x.2)
    else (0, s)

/-- FAULT_EXPORT (R460): the records of DEST = 1 go to DRAM on port 10, under the checks of every write of that port (R269). -/
def State.doExport (s : State) (w : Nat) : State :=
  let l := (s.flt.ring.take (bits (s.winArg w 0) 8 8 + 1)).reverse
  let r : Nat × State := if bit (s.winArg w 0) 0 then
      (l.length, s.dramPut 10 (s.exportWant w).2 (l.flatMap FRec.bytes))
    else s.exportQueue l
  (r.2.winDone w Code.done r.1).fltEvt 8

/-- FAULT_CLEAR (R461). -/
def State.doClear (s : State) (a : Word) : State :=
  let s := if bit a 0 then s.modFlt fun f => { f with valid := false, pin := false } else s
  let s := if bit a 1 then s.modFlt fun f => { f with ring := [] } else s
  if bit a 2 then s.modFlt fun f => { f with units := f.units.map fun (u : Nat × FUnit) => (u.1, { u.2 with hits := [] }) } else s

/-- SEQ_MAIL: the record goes to the window's mailbox, and the microcode is told (R382). -/
def State.doMail (s : State) (w : Nat) : State :=
  let s := iter (List.range 16) (fun i s => s.setReg (Adr.SEQ_DMEM ((0xFF00 + 64 * w) / 4 + i)) (s.winReq w i)) s
  (s.winWait w .mail).occur 0xE2

/-- PATCH_SUBMIT: the patch goes to the patch area of the running image (R222, R411). -/
def State.doPatch (s : State) (w : Nat) : State :=
  let at_ := (s.winArg w 0).toNat + 2 ^ 32 * (s.winArg w 1).toNat
  (s.winWait w .patch).flOwn (.patch w s.patchEnd (storedPatch (memRead 0 s.dram at_ (s.winArg w 2).toNat)))

/-- A request that applies at once and has passed its checks. -/
def State.applyNow (s : State) (w op kind i : Nat) : State :=
  match op with
  | 0x01 => s.fenceTry w
  | 0x12 => (s.askKey kind i).winDone w Code.done
  | 0x20 =>
    let r := s.doRetire kind i
    r.2.winDone w Code.done r.1
  | 0x21 => (s.startRepair ((fltUnit (target kind i)).getD 0) false).winDone w Code.done
  | 0x22 => (s.doRetrain kind i).winDone w Code.done
  | 0x30 => (s.winWait w (.power i)).powerReq i (pstate (bits (s.winArg w 0) 0 2)) (.host w)
  | 0x41 => (s.winWait w (.walk i)).resetQueue i
  | 0x50 => s.doPatch w
  | 0x51 => s.restart
  | 0x60 => s.doExport w
  | 0x61 => (s.doClear (s.winArg w 0)).winDone w Code.done
  | 0x70 => s.doMail w
  | _ => s.winDone w Code.done

/-- Windows with a tick request of an opcode and TARGET that waits. -/
def State.pendingLike (s : State) (w op tgt : Nat) : List Nat :=
  (s.winsOn fun k => k = .tick).filter fun x => x ≠ w && s.winOp x = op && s.winTarget x = tgt

/-- A tick request that has passed its checks waits, and takes the place of an earlier one (R379). -/
def State.applyLater (s : State) (w op : Nat) : State :=
  let s := iter (s.pendingLike w op (s.winTarget w)) (fun x s => s.winDone x Code.superseded) s
  let s := s.winPend w
  if op = 0x31 then
    (if bit (s.winArg w 0) 0 then s.odRaise
     else
       let s := if s.thm.odRaised && !s.thm.od then s.odLower else s
       s.odStop false)
  else s

/-- The doorbell of a window that holds no request (R378). -/
def State.ring_ (s : State) (w tag : Nat) : State :=
  let s := { s with win := tput s.win w ⟨tag, .tick⟩ }
  let s := s.setFld (Adr.HST_W_RESP w) 16 1 1
  let c := s.reqCode w
  let op := s.winOp w
  if c ≠ Code.done then s.winDone w c
  else if opTick op then s.applyLater w op
  else s.applyNow w op (s.winTarget w / 4096) (s.winTarget w % 4096)

/-! ### Tick requests at their tick (R379) -/

/-- Sets a RWT register to the value that takes force at this tick. -/
def State.setNow (s : State) (a : Nat) (v : Word) : State :=
  let s := s.setReg a v
  { s with force := tset (regReset s.fuse a) s.force a (s.reg a) }

/-- SET_RATE takes effect (R381). -/
def State.doRate (s : State) (w kind i : Nat) : State :=
  let put (a : Nat) (width : Nat) (v : Word) (s : State) : State :=
    if v = allOnes then s else s.setNow a (putBits (s.reg a) 0 width v.toNat)
  if kind = 1 then put (Adr.FCT_S_SLOT i) 32 (s.winArg w 0) s
  else put (Adr.COD_C_SLICE i) 24 (s.winArg w 2) (put (Adr.COD_C_VBV i) 28 (s.winArg w 1) (put (Adr.COD_C_RATE i) 24 (s.winArg w 0) s))

/-- The enable changes of a stream's lists, made at the boundary that takes the tick (R213 step 5). -/
def State.askEnable (s : State) (kind i : Nat) (on : Bool) : State :=
  { s with seq := { s.seq with enables := s.seq.enables ++ (s.boundLists (kind - 1) i).map fun l => (l, on) } }

/-- One waiting tick request at a tick. A SET_TICK leaves a holdover as it is, whatever its source: R20 does not say that a change
of source ends one, and that it does not is the model's choice (log 3212). -/
def State.tickReq (s : State) (w : Nat) : State :=
  let op := s.winOp w
  let kind := s.winTarget w / 4096
  let i := s.winTarget w % 4096
  let c := s.reqCode w
  if c ≠ Code.done then
    (if op = 0x31 && s.thm.odRaised && !s.thm.od then s.odLower else s).winDone w c 0 true
  else match op with
    | 0x10 => (s.askEnable kind i true).winDone w Code.done 0 true
    | 0x11 => (s.askEnable kind i false).winDone w Code.done 0 true
    | 0x13 => (s.doRate w kind i).winDone w Code.done 0 true
    | 0x31 =>
      if bit (s.winArg w 0) 0 then
        (if s.thm.od then s.winDone w Code.done 0 true
         else if s.thm.odReached then (s.odEnter.winDone w Code.done 0 true)
         else s.odRaise)
      else ((s.odStop false).odTick).winDone w Code.done 0 true
    | _ => ((s.setReg Adr.GLB_TICK_CTL (s.winArg w 0)).setReg Adr.GLB_TICK_RATE (s.winArg w 1)).winWait w .source

/-- At a tick: requests whose new tick source has given its first tick complete, and the waiting ones are checked again, in
window order (R379, R383). -/
def State.tickReqs (s : State) : State :=
  let src := s.winsOn fun k => k = .source
  let due := s.winsOn fun k => k = .tick
  let s := iter src (fun w s => s.winDone w Code.done 0 true) s
  iter due (fun w s => s.tickReq w) s

/-- A SEQ_MAIL answer from the microcode: whether a request took it (R382). An answer whose code R16 reserves is not taken, since the
device never returns one; that the request goes on waiting is the model's choice (log 2913). -/
def State.seqAns (s : State) (w : Nat) (v : Word) : Bool × State :=
  if bits v 0 8 < 0x14 && (s.winsOn fun k => k = .mail).contains w then (true, s.winDone w (bits v 0 8) (bits v 8 24)) else (false, s)

/-- A window's wait of a kind ends with TIMEOUT. -/
def State.winTimeout (s : State) (w : Nat) (p : Wait → Bool) : State :=
  if (s.winsOn p).contains w then s.winDone w Code.timeout else s

end Sys2Proof.Machine
end

