-- ==== Sys2Proof/Machine/Bus.lean ====
section
/-! DEFINITION. Reads and writes of BAR0 (R8 to R14, R207, R376, R399): the checks of an access in their order, the pairs with
their holding registers, the values that a register's own rules discard, and what a write or a read of each register does.
Readings are log 30. -/

namespace Sys2Proof.Machine

/-- A pseudo-code: the access has no effect and latches nothing (R5, R8). -/
def Code.silent : Nat := 0x100

/-! ### _LO/_HI pairs (R11) -/

/-- The offset is the _LO half of a pair; its _HI half lies 4 bytes on. -/
def pairLo (a : Nat) : Bool :=
  if a < 0x80000 then
    a = Adr.GLB_TICK_CNT_LO || a = Adr.HST_ACC_ERR_ADDR_LO || a = Adr.HST_BAR2_BASE_LO || a = Adr.PTP_TIME_S_LO ||
      a = Adr.PTP_SET_S_LO || a = Adr.PTP_GM_ID_LO
  else if a < 0x100000 then a = Adr.SEQ_GOLD_BASE_LO
  else if a < 0x300000 then 0x200000 ≤ a && a < 0x200180 && (a % 64 = 8 || a % 64 = 16 || a % 64 = 24)
  else if a < 0x400000 then 0x301000 ≤ a && a < 0x301800 && (a % 256 = 0x84 || a % 256 = 0x94)
  else if a < 0x600000 then 0x401000 ≤ a && a < 0x403000 && a % 256 = 0x10
  else if a < 0x680000 then a % 0x20000 = 0x20 || a % 0x20000 = 0x34 || a % 0x20000 = 0x40
  else if a < 0x800000 then a % 0x20000 = 0x1004 || a % 0x20000 = 0x1104
  else if a < 0xD00000 then 0x809100 ≤ a && a < 0x809200 && (a % 64 = 0x0C || a % 64 = 0x18)
  else (0xD08100 ≤ a && a < 0xD09100 && a % 64 = 0x28) || (0xD09200 ≤ a && a < 0xD0A200 && a % 64 = 4)

/-- The offset is the _HI half of a pair. -/
def pairHi (a : Nat) : Bool := 4 ≤ a && pairLo (a - 4)

/-- The key of a pair's holding registers, by the offset of its _LO half and the interface. -/
def holdKey (f : Iface) (lo : Nat) : Nat := 4 * lo + ifIdx f

/-- The time-code load registers (R111, R163). -/
def isTcLoad (a : Nat) : Bool :=
  (List.range 4).any (fun k => a = Adr.FCT_S_TC_LOAD k) || (List.range 64).any fun c => a = Adr.COD_C_TC_LOAD c

/-- Sets a register to a written value, its reserved bits ignored (R10); a time-code load is noted for the next tick. -/
def State.put (s : State) (a : Nat) (v : Word) : State :=
  let s := s.setReg a (v &&& regMask a)
  if isTcLoad a then { s with loads := s.loads ++ [a] } else s

/-- A write of a plain register: a _LO write goes to the holding register, a _HI write commits both halves. -/
def State.wrPlain (s : State) (f : Iface) (a : Nat) (v : Word) : State :=
  if pairLo a then { s with holdW := tput s.holdW (holdKey f a) v }
  else if pairHi a then (s.put (a - 4) (tget 0 s.holdW (holdKey f (a - 4)))).put a v
  else s.put a v

/-! ### The checks of an access in their order -/

/-- Offsets that the host reaches before boot completes: the global block, the boot block, and HST_ACC_ERR with its address
(R399). -/
def earlyOk (a : Nat) : Bool := a < 0x10000 || (0x50000 ≤ a && a < 0x60000) || (0x40000 ≤ a && a ≤ 0x40008)

/-- Offsets of a DMA channel's block that the other grade has: the shadow set and its results on a TPV-9X, the ring on a TPV-9M
(R369). -/
def State.otherGrade (s : State) (a : Nat) : Bool :=
  0x401000 ≤ a && a < 0x403000 && (if s.fuse.m then 0x10 ≤ a % 256 && a % 256 ≤ 0x20 else 0x40 ≤ a % 256 && a % 256 < 0x70)

/-- Offsets that no block of the map has (R14): reserved space, whatever is off. -/
def unlisted (a : Nat) : Bool := (0x660000 ≤ a && a < 0x680000) || (0x700000 ≤ a && a < 0x800000) || 0xF00000 ≤ a

/-- Why an access is refused whatever is written (R9, R13, R14, R399, R5): DONE where it reaches a register. `rom`: a pair of a
REGS record, which reaches every block but the request windows. -/
def State.gate (s : State) (rom : Bool) (a : Nat) : Nat :=
  if a % 4 ≠ 0 ∨ 0x4000000 ≤ a then Code.badTarget
  else if !s.boot.done && !earlyOk a && !(rom && !(0x41000 ≤ a && a < 0x42000)) then Code.notNow
  else if s.absent a then Code.silent
  else if unlisted a then Code.badTarget
  else if !s.domUp (domOf a) then Code.domainOff
  else if (regRow a).isNone || s.otherGrade a then Code.badTarget
  else Code.done

/-- A write of QF_Q_CFG or QF_Q_STORE of a reserved queue (R243): only CONS and CONS_IDX of queue 4 may be written, naming HOST
or one DMA channel; its reserved bits are ignored (R10). -/
def State.reservedQueueOk (s : State) (a : Nat) (v : Word) : Bool :=
  a = Adr.QF_Q_CFG 4 && v &&& 0x1F = 0x1D &&
    ((bits v 5 2 = 0 && bits v 8 8 = 0) || (bits v 5 2 = 3 && bits v 8 8 < s.nDma))

/-- A class-0 egress queue (R311). -/
def State.liveEgress (s : State) (q : Nat) : Bool := (s.portOf q).isSome && s.qClass q = 0

/-- A value of SCH_Q_BURST is at least the longest unit of the queue's port (R308). -/
def State.burstOk (s : State) (q : Nat) (v : Word) : Bool := (s.portOf q).all fun p => s.maxUnit p ≤ bits v 0 24

/-- A line other than l is routed to a pin. -/
def State.pinRouted (s : State) (l pin : Nat) : Bool :=
  (List.range 8).any fun m => m ≠ l && s.fld (Adr.IC_ROUTE m) 0 3 = pin

/-- The limits of R329 on a transmit filter. -/
def firOk (v : Word) : Bool :=
  let pre := bits v 0 4
  let c := bits v 4 6
  let post := bits v 10 5
  24 ≤ c && pre + c + post ≤ 63 && pre + post + 21 ≤ c

/-- COD_C_RC in range. -/
def rcOk (v : Word) : Bool :=
  bits v 0 3 ≤ 3 && 1 ≤ bits v 4 3 && bits v 4 3 ≤ 6 && 1 ≤ bits v 8 4 && bits v 8 4 ≤ 8 && bits v 12 5 ≤ 16

/-- Every byte of a noise table word has bits [7:6] zero. -/
def ntOk (v : Word) : Bool := v &&& 0xC0C0C0C0 = 0

/-- Why a write that reaches a register is discarded by the rules of the block, always-on and host blocks. The sequencer's write of
HST_ACC_ERR is discarded, since it never changes that register (R207). -/
def State.badLow (s : State) (f : Iface) (a : Nat) (v : Word) : Nat :=
  if a < 0x30000 then
    (if a = Adr.PWR_DRAIN_TMO && bits v 0 16 = 0 then Code.outOfRange
     else if a = Adr.FLT_CTL && bits v 8 4 = 0 then Code.outOfRange
     else if a = Adr.FLT_INJ_ARG && !s.injUnlocked then Code.locked
     else Code.done)
  else if a < 0x40000 then
    (if 0x34800 ≤ a ∧ a < 0x34820 then
       (if 4 ≤ bits v 0 3 && bits v 0 3 ≤ 6 then Code.outOfRange
        else if bits v 0 3 < 4 && s.pinRouted ((a - 0x34800) / 4) (bits v 0 3) then Code.inUse
        else Code.done)
     else if 0x34000 ≤ a ∧ a < 0x34400 ∧ !s.hasSource ((a - 0x34000) / 4) then Code.silent
     else Code.done)
  else if a < 0x50000 then
    (if a = Adr.HST_BAR2_BASE_LO && bits v 0 16 ≠ 0 then Code.outOfRange
     else if a = Adr.HST_ACC_ERR && f = .seq then Code.silent
     else if 0x41000 ≤ a ∧ a < 0x41400 ∧ a % 256 ≤ 0x40 ∧ s.winBusy ((a - 0x41000) / 256) then Code.notNow
     else if 0x41000 ≤ a ∧ a < 0x41400 ∧ a % 256 = 0x50 ∧ f ≠ .seq then Code.notOwner
     else Code.done)
  else if a < 0x60000 then
    (if a = Adr.BOOT_CTL && 2 ≤ bits v 0 2 then Code.outOfRange
     else if a = Adr.BOOT_CTL && bit v 8 && s.boot.stage ≠ 11 then Code.notNow
     else if a = Adr.BOOT_FL_OP && !s.boot.done && s.boot.stage ≠ 11 then Code.notNow
     else Code.done)
  else if a = Adr.PTP_SET_S_HI && bit v 31 && !(s.ptpSrc = 1 || s.ptpSrc = 2) then Code.notNow
  else Code.done

/-- The same for the fabric, the scheduler and the DMA. -/
def State.badFabric (s : State) (rom : Bool) (a : Nat) (v : Word) : Nat :=
  if a < 0x200000 then
    (if a % 256 ≤ 4 ∧ a < 0x101000 ∧ !s.reservedQueueOk a v then Code.outOfRange
     else if a % 256 = 0x24 ∧ s.flag (a + 4) 8 then Code.notNow
     else Code.done)
  else if a < 0x300000 then
    (if (a = Adr.BP_H_ALLOC && s.flag Adr.BP_H_RES 8) || (a = Adr.BP_H_FREE && s.flag Adr.BP_H_FREE_RES 8) then Code.notNow
     else Code.done)
  else if a < 0x310000 then
    let p := if a < 0x308000 then (a - 0x301000) / 256 else (a - 0x308000) / 0x400
    let bank := (a - 0x308000) / 0x200 % 2
    (if a < 0x301000 then Code.done
     else if 0x308000 ≤ a then (if s.pendingList p || bank = s.operBank p then Code.notNow else Code.done)
     else if 0x80 ≤ a % 256 ∧ s.pendingList p ∧ !(a % 256 = 0x9C && bit v 9) then Code.notNow
     else Code.done)
  else if a < 0x400000 then
    let q := (a - 0x310000) / 32
    (if a % 32 = 0 then (if bits v 0 8 = 0 then Code.outOfRange else Code.done)
     else if rom then Code.done
     else if a % 32 = 4 && bit v 31 && s.liveEgress q then Code.inUse
     else if a % 32 = 4 && bit v 31 && !s.burstOk q (s.reg (a + 4)) then Code.outOfRange
     else if a % 32 = 8 && s.flag (a - 4) 31 && !s.burstOk q v then Code.outOfRange
     else Code.done)
  else if 0x401000 ≤ a ∧ a < 0x403000 ∧ 0x40 ≤ a % 256 ∧ a % 256 < 0x60 ∧ (s.dch_ ((a - 0x401000) / 256)).shd then Code.notNow
  else Code.done

/-- The same for the memory controllers, the links and the engines. -/
def State.badUnits (s : State) (rom : Bool) (a : Nat) (v : Word) : Nat :=
  if a < 0x600000 then (if a = Adr.DMC_G_PORT 13 then Code.silent else Code.done)
  else if 0x680000 ≤ a ∧ a < 0x800000 then
    (if 0x14 ≤ a % 0x20000 ∧ a % 0x20000 < 0x24 ∧ !firOk v then Code.outOfRange else Code.done)
  else if 0x808100 ≤ a ∧ a < 0x808200 then
    (if a % 64 = 8 ∧ !rom ∧ !s.slotOk ((a - 0x808100) / 64) v.toNat then Code.outOfRange
     else if 0x0C ≤ a % 64 ∧ a % 64 ≤ 0x18 ∧ !ntOk v then Code.outOfRange
     else Code.done)
  else if 0xD08100 ≤ a ∧ a < 0xD09100 ∧ !rom then
    (let c := (a - 0xD08100) / 64
     if a % 64 = 0x10 ∧ !rcOk v then Code.outOfRange
     else if a % 64 = 0x20 ∧ s.cEn c ∧ !s.cDec c ∧ !s.sliceOk c (bits v 0 24) then Code.outOfRange
     else Code.done)
  else Code.done

/-- Why a write that reaches a register is discarded: the access code (R8, R13), then the register's own rules. A reserved
queue's configuration has a rule of its own (R243). -/
def State.badWrite (s : State) (f : Iface) (rom : Bool) (a : Nat) (v : Word) : Nat :=
  let own := if a < 0x80000 then s.badLow f a v else if a < 0x100000 then Code.done
    else if a < 0x500000 then s.badFabric rom a v else s.badUnits rom a v
  match regAcc a with
  | some .ro => Code.silent
  | some .rc => Code.silent
  | some .rwl =>
    if 0x100000 ≤ a ∧ a < 0x101000 ∧ a % 256 ≤ 4 ∧ own ≠ Code.done then own
    else if s.boot.done then Code.locked
    else own
  | _ => own

/-! ### What a write does -/

/-- A write of HST_ACC_ERR: VALID, OVF and the latched address are cleared (R376). -/
def State.clearAccErr (s : State) (v : Word) : State :=
  if bit v 0 then (((s.setFld Adr.HST_ACC_ERR 0 1 0).setFld Adr.HST_ACC_ERR 16 8 0).setReg Adr.HST_ACC_ERR_ADDR_LO 0).setReg
    Adr.HST_ACC_ERR_ADDR_HI 0 else s

/-- A write of FLT_STAT (R463). -/
def State.clearFlt (s : State) (v : Word) : State :=
  s.modFlt fun f => { f with valid := f.valid && !bit v 0, pin := f.pin && !bit v 1 }

/-- A write of QF_Q_OP (R246). -/
def State.queueOp (s : State) (q : Nat) (v : Word) : State :=
  let arg := (s.z (Adr.QF_Q_OPARG q)).toNat
  let op := bits v 0 2
  let r : Nat × State :=
    if op = 3 then (Code.badOpcode, s)
    else if op = 2 then
      (let c := s.qResetCode q
       if c = Code.done then (256, s.resetQueue q) else (c, s))
    else if s.qCons q ≠ 0 && (s.qRefuse q).isNone then (Code.notOwner, s)
    else if op = 0 then s.consRewind q arg
    else s.release q arg
  r.2.setRegN (Adr.QF_Q_OPRES q) r.1

/-- A write of QF_RESET (R245, R247). -/
def State.fabricReset (s : State) (v : Word) : State :=
  if !bit v 0 then s
  else if s.anyRuns then s.setRegN Adr.QF_RESET_RES Code.inUse
  else
    let s := s.resetFabric.setRegN Adr.QF_RESET_RES Code.done
    iter (s.winsOn fun k => match k with
      | .walk _ => true
      | _ => false) (fun w s => s.winDone w Code.done) s

/-- A write of SCH_P_CL_CTL that is not discarded (R317, R324). -/
def State.listCtl (s : State) (p : Nat) (v : Word) : State :=
  if s.pendingList p then s.schCancel p
  else
    let s := s.setFld (Adr.SCH_P_CL_CTL p) 0 6 (bits v 0 6)
    if bit v 8 then s.schCommit p else s

/-- A write of IC_CLAIM (R388): whether the complete was taken. -/
def State.completeAt (s : State) (a : Nat) (v : Word) : Nat × State :=
  let o := a - 0x30000
  let t := o / 0x1000 % 4
  let fast := 0x8000 ≤ o
  let ok := s.ic.active.any fun x => x.1 = bits v 0 8 && x.2.1 = t && x.2.2 == fast
  (if ok then Code.done else Code.silent, s.complete t fast (bits v 0 8))

/-- The bits of an IC_EN word whose sources exist (R384). -/
def State.sourceMask (s : State) (i : Nat) : Word :=
  BitVec.ofNat 32 (maskOf 32 fun b => s.hasSource (32 * i + b))

/-- A write below the sequencer's block that has passed its checks. -/
def State.doLow (s : State) (f : Iface) (a : Nat) (v : Word) : Nat × State :=
  if a = Adr.FLT_STAT then (Code.done, s.clearFlt v)
  else if a = Adr.FLT_INJ_CTL then s.injWrite v
  else if 0x30000 ≤ a ∧ a < 0x3C000 then
    (let o := a - 0x30000
     if o % 0x1000 = 0x104 ∧ o < 0xC000 ∧ o / 0x4000 ≠ 1 then s.completeAt a v
     else if o < 0x4000 ∧ o % 0x1000 < 0x20 then (Code.done, s.setReg a (v &&& s.sourceMask (o % 0x1000 / 4)))
     else if 0x4480 ≤ o ∧ o < 0x44A0 then (Code.done, s.pendSet ((o - 0x4480) / 4) v)
     else (Code.done, s.put a v))
  else if a = Adr.HST_ACC_ERR then (Code.done, s.clearAccErr v)
  else if 0x41000 ≤ a ∧ a < 0x41400 ∧ a % 256 = 0x40 then (Code.done, s.ring_ ((a - 0x41000) / 256) (bits v 0 8))
  else if 0x41000 ≤ a ∧ a < 0x41400 ∧ a % 256 = 0x50 then
    (let r := s.seqAns ((a - 0x41000) / 256) v
     (if r.1 then Code.done else Code.silent, r.2))
  else if a = Adr.BOOT_CTL then
    (let s := s.setReg a (v &&& 3)
     (Code.done, if bit v 8 then s.restart else s))
  else if a = Adr.BOOT_FL_OP then (Code.done, s.flIssue (bits v 0 3))
  else if a = Adr.PTP_SET_S_HI then
    (let s := s.wrPlain f a (v &&& 0x7FFFFFFF)
     (Code.done, if bit v 31 then s.ptpGo else s))
  else if regAcc a = some .w1c then (Code.done, s.setReg a (s.reg a &&& ~~~v))
  else (Code.done, s.wrPlain f a v)

/-- A write from the sequencer's block on that has passed its checks. -/
def State.doHigh (s : State) (f : Iface) (a : Nat) (v : Word) : Nat × State :=
  if 0x100000 ≤ a ∧ a < 0x200000 ∧ a % 256 = 0x24 then (Code.done, s.queueOp ((a - 0x100000) / 256) v)
  else if a = Adr.QF_RESET then (Code.done, s.fabricReset v)
  else if a = Adr.BP_H_ALLOC then s.hostAlloc v
  else if a = Adr.BP_H_FREE then s.hostFree v false
  else if 0x301000 ≤ a ∧ a < 0x301800 ∧ a % 256 = 0x9C then (Code.done, s.listCtl ((a - 0x301000) / 256) v)
  else if a = Adr.DMA_CTL then s.dmaGlbCtl v
  else if 0x401000 ≤ a ∧ a < 0x403000 ∧ a % 256 = 4 then s.dmaCtl ((a - 0x401000) / 256) v
  else if 0x401000 ≤ a ∧ a < 0x403000 ∧ a % 256 = 0x1C then s.dmaDb ((a - 0x401000) / 256) v
  else if 0x401000 ≤ a ∧ a < 0x403000 ∧ a % 256 = 0x60 then s.dmaGoHost ((a - 0x401000) / 256) v
  else if regAcc a = some .w1c then (Code.done, s.setReg a (s.reg a &&& ~~~v))
  else (Code.done, s.wrPlain f a v)

/-- A 32-bit write of BAR0: the code it latches (DONE where it takes effect, `Code.silent` where it is discarded and latches
nothing), and the state after it. -/
def State.wr (s : State) (f : Iface) (rom : Bool) (a : Nat) (v : Word) : Nat × State :=
  let g := s.gate rom a
  let c := if g ≠ Code.done then g else s.badWrite f rom a v
  if c ≠ Code.done then (c, s)
  else if a < 0x80000 then s.doLow f a v
  else s.doHigh f a v

/-- A host's write: an error is latched (R376). -/
def State.write (s : State) (f : Iface) (a : Nat) (v : Word) : State :=
  let r := s.wr f false a v
  if r.1 = Code.done ∨ r.1 = Code.silent then r.2 else r.2.accErr f a true r.1

/-- A host's write with byte enables (R9). That the byte enables are checked before anything else, so that BAD_TARGET is latched
before boot, for an absent unit and for a domain that is off too, is the model's choice (log 3011). -/
def State.writeBe (s : State) (f : Iface) (a be : Nat) (v : Word) : State :=
  if be = 15 then s.write f a v else s.accErr f a true Code.badTarget

/-! ### What a read does -/

/-- What a read of a RC register leaves in it (R8): 0, or the value that its description names. -/
def State.afterRead (s : State) (a : Nat) : Nat :=
  if a < 0x200180 ∧ a = Adr.BP_P_MINFREE ((a - 0x200000) / 64) then s.poolFree ((a - 0x200000) / 64)
  else if a = Adr.THM_MAX then toBits 9 s.thm.tj
  else 0

/-- A read that reaches a register of a queue's notice and data windows: words that do not take anything (R246). -/
def State.queueWord (s : State) (f : Iface) (a : Nat) : Word × State :=
  let q := (a - 0x100000) / 256
  (s.value a, if s.qCons q ≠ 0 then s.accErr f a false Code.notOwner else s)

/-- The notice and data windows, which a read may change. -/
def inWindow (a : Nat) : Bool :=
  0x100000 ≤ a && a < 0x200000 && ((0x60 ≤ a % 256 && a % 256 < 0x70) || (0x80 ≤ a % 256 && a % 256 ≤ 0xA0))

def State.rdWindow (s : State) (f : Iface) (a : Nat) (flip : Bool) : Word × State :=
  let q := (a - 0x100000) / 256
  if a % 256 = 0x6C then s.hostNotice f q
  else if a % 256 = 0x9C then s.hostRdata f q flip
  else s.queueWord f a

/-- A counter of stalled cycles is brought up to the present before it is read (R237). -/
def State.beforeRead (s : State) (a : Nat) : State :=
  if 0x100000 ≤ a ∧ a < 0x200000 ∧ a % 256 = 0x48 then s.flushStall ((a - 0x100000) / 256) else s

/-- A read that reaches a register. -/
def State.rdReg (s : State) (f : Iface) (a : Nat) (flip : Bool) : Word × State :=
  if regAcc a = some .wo then (0, s)
  else if regAcc a = some .rc then
    (let s := s.beforeRead a
     (s.value a, s.setRegN a (s.afterRead a)))
  else if pairLo a then (s.value a, { s with holdR := tput s.holdR (holdKey f a) (s.value (a + 4)) })
  else if pairHi a then (tget 0 s.holdR (holdKey f (a - 4)), s)
  else if a = Adr.PTP_TIME_NS then s.ptpRead
  else if inWindow a then s.rdWindow f a flip
  else if 0x30000 ≤ a ∧ a < 0x3C000 ∧ a / 0x4000 ≠ 13 ∧ a % 0x1000 = 0x104 then s.claim (a / 0x1000 % 4) (0x38000 ≤ a)
  else (s.value a, s)

/-- A 32-bit read of BAR0: the code it latches, the word it returns, and the state after it. -/
def State.rd_ (s : State) (f : Iface) (a : Nat) (flip : Bool) : Nat × Word × State :=
  let g := s.gate false a
  if g = Code.done then
    let r := s.rdReg f a flip
    (Code.done, r.1, r.2)
  else (g, if g = Code.domainOff then 0xFFFFFFFF else 0, s)

/-- A host's read: an error is latched (R376). -/
def State.read (s : State) (f : Iface) (a : Nat) (flip : Bool := false) : Word × State :=
  let r := s.rd_ f a flip
  (r.2.1, if r.1 = Code.done ∨ r.1 = Code.silent then r.2.2 else r.2.2.accErr f a false r.1)

/-- A host's read whose word is answered. -/
def State.readAns (s : State) (f : Iface) (a : Nat) (flip : Bool := false) : State :=
  let r := s.read f a flip
  r.2.answer f [r.1]

/-- Words read from rising addresses. -/
def State.readBurst (s : State) (f : Iface) (a : Nat) : Nat → List Word × State
  | 0 => ([], s)
  | n + 1 =>
    let r := s.read f a
    let t := r.2.readBurst f (a + 4) n
    (r.1 :: t.1, t.2)

/-- A memory request of the endpoint carries at most 64 bytes (R372). -/
def longRequest (f : Iface) (words : Nat) : Bool := f = .pcie && 16 < words

end Sys2Proof.Machine
end

