-- ==== Sys2Proof/Machine/Checks.lean ====
section
/-! DEFINITION. The configuration checks of stage CHECKS (R412): every refusal at boot that register values alone decide, block by
block. A check is the BAR0 offset of one register that it involves, and whether it passes. Readings are log 34. -/

namespace Sys2Proof.Machine

/-- A divisor and a phase (R23). -/
def divOk (d p : Nat) : Bool := 1 ≤ d && d ≤ 64 && p < d

/-- Ranges [a, b) of which no two overlap. -/
def disjoint : List (Nat × Nat) → Bool
  | [] => true
  | x :: t => t.all (fun y => x.2 ≤ y.1 || y.2 ≤ x.1 || x.1 = x.2 || y.1 = y.2) && disjoint t

/-- A queue that the image names: one of the image's own, and enabled (R243, R503). -/
def State.qNamedOk (s : State) (q : Nat) : Bool := 16 ≤ q && s.qEnabled q

/-- An address pair whose low bits must be 0. -/
def State.aligned (s : State) (lo k : Nat) : Bool := (s.reg lo).toNat % k = 0

/-! ### Global, interrupt, host and time blocks -/

def State.chkLow (s : State) : List (Nat × Bool) :=
  let ctl := s.reg Adr.GLB_TICK_CTL
  let pins := (List.range 8).map fun l => s.fld (Adr.IC_ROUTE l) 0 3
  [(Adr.GLB_TICK_CTL, bits ctl 2 2 ≠ 3 && 1 ≤ bits ctl 8 8 && bits ctl 8 8 ≤ 64),
   (Adr.GLB_TICK_RATE, s.tickOk ctl (s.reg Adr.GLB_TICK_RATE)),
   (Adr.HST_BAR2_CFG, 28 ≤ s.fld Adr.HST_BAR2_CFG 0 6 && s.fld Adr.HST_BAR2_CFG 0 6 ≤ 36),
   (Adr.PTP_CTL, s.fld Adr.PTP_CTL 0 2 ≠ 3 &&
      (s.fld Adr.PTP_CTL 0 2 ≠ 0 || (s.fld Adr.PTP_CTL 3 3 < 2 * s.nXcv && s.isEth (s.fld Adr.PTP_CTL 3 3))))] ++
  (List.range 8).map fun l =>
    let pin := pins.getD l 7
    (Adr.IC_ROUTE l, pin = 7 || (pin < 4 && (pins.filter (· = pin)).length = 1))

/-! ### Landing (R42, R43, R54, R63, R69) -/

/-- WIDTH and HEIGHT within the limits of the group's mode (R54, R79, R141). -/
def State.geomOk (s : State) (g : Nat) : Bool :=
  let w := s.lgWidth g
  let h := s.lgHeight g
  if s.lgMode g = 0 then 256 ≤ w && w ≤ 16384 && 16 ≤ h && h ≤ 12288 && w % 16 = 0 && h % 16 = 0
  else 256 ≤ w && w ≤ 8192 && 128 ≤ h && h ≤ 4352 && w % 8 = 0 && h % 8 = 0

/-- A Casket ring in pages: first and end. -/
def State.ringPages (s : State) (g : Nat) : Nat × Nat :=
  let a := s.fld (Adr.LND_CASKET g) 0 16
  (a, a + s.fld (Adr.LND_CASKET g) 16 16)

/-- Groups that own a Casket ring. -/
def State.ringGroups (s : State) : List Nat :=
  (List.range s.nLnd).filter fun g => s.flag (Adr.LND_CTL g) 0 && s.lgMode g = 0 && s.lgPos g = 0

/-- A Crossing group that exists and is in Ferry link mode. -/
def State.ferryMode (s : State) (x : Nat) : Bool := x < s.nXcv && !s.flag (Adr.XCV_CTL x) 1

def State.chkLnd (s : State) (g : Nat) : List (Nat × Bool) :=
  let c := s.reg (Adr.LND_CTL g)
  let on := bit c 0
  let raw := bits c 1 2 = 0
  let own := bits c 10 2 = 0
  [(Adr.LND_CTL g, bits c 1 2 < 2 && bits c 3 3 < 6 && bits c 12 2 ≠ 3 && !(bit c 9 && bits c 6 3 = 7)),
   (Adr.LND_FMT g, s.fld (Adr.LND_FMT g) 5 2 < 2),
   (Adr.LND_FB_CTL g, s.fld (Adr.LND_FB_CTL g) 4 2 ≠ 3),
   (Adr.LND_BC_CTL g, !s.flag (Adr.LND_BC_CTL g) 0 || s.ferryMode (s.fld (Adr.LND_BC_CTL g) 1 2)),
   (Adr.LND_CTL g, !on || bits c 10 2 ≤ bits c 12 2),
   (Adr.LND_FMT g, !on || (10 ≤ s.fld (Adr.LND_FMT g) 0 5 && s.fld (Adr.LND_FMT g) 0 5 ≤ 18)),
   (Adr.LND_GEOM g, !on || s.geomOk g),
   (Adr.LND_CTL g, !on || (s.gang g).all fun h =>
      s.reg (Adr.LND_GEOM h) = s.reg (Adr.LND_GEOM g) && s.reg (Adr.LND_FMT h) = s.reg (Adr.LND_FMT g) &&
      s.fld (Adr.LND_CTL h) 1 9 = s.fld (Adr.LND_CTL g) 1 9),
   (Adr.LND_CASKET g, !(on && raw && own) ||
      (2 * s.slotPages g ≤ s.fld (Adr.LND_CASKET g) 16 16 && (s.ringPages g).2 ≤ (if s.fuse.m then 2048 else 4096) &&
       s.ringGroups.all fun h => h = g || disjoint [s.ringPages g, s.ringPages h])),
   (Adr.LND_OVF_BASE_LO g, !(on && raw && own) || s.aligned (Adr.LND_OVF_BASE_LO g) 4096),
   (Adr.LND_FB_BASE_LO g, !(on && !raw && own) || s.aligned (Adr.LND_FB_BASE_LO g) 4096)]

/-! ### Facet engines and playback (R25, R111, R117, R133 to R135, R190, R191, R193) -/

/-- Queues that enabled streams and contexts name, the lane queues left out. -/
def State.namedQueues (s : State) : List Nat :=
  ((List.range 4).filter fun k => s.flag (Adr.FCT_S_CTL k) 0).map (fun k => s.fld (Adr.FCT_S_RQ k) 0 12) ++
  ((List.range 4).filter s.pEn).flatMap (fun p => [s.pInq p, s.pOutq p]) ++
  ((List.range s.nCtx).filter s.cEn).flatMap fun c => if s.cDec c then [s.cQueue c, s.fld (Adr.COD_C_IO c) 16 12] else [s.cQueue c]

/-- DROP only at a rate of 30 or 60 (R111, R163). -/
def dropOk (v : Word) : Bool := !bit v 8 || bits v 2 6 = 30 || bits v 2 6 = 60

/-- TC_RATE lies in 1 to 60 where time codes are on (R134, R167). -/
def tcRateOk (v : Word) : Bool := !bit v 0 || (1 ≤ bits v 2 6 && bits v 2 6 ≤ 60)

def State.chkStream (s : State) (k : Nat) : List (Nat × Bool) :=
  let c := s.reg (Adr.FCT_S_CTL k)
  let rq := s.fld (Adr.FCT_S_RQ k) 0 12
  [(Adr.FCT_S_CTL k, bits c 1 2 ≠ 3 && bits c 5 2 ≠ 3 && 2 ≤ bits c 16 4 && bits c 16 4 ≤ 8 && !(bits c 1 2 = 1 && bits c 8 8 = 0)),
   (Adr.FCT_S_RATE k, divOk (s.fld (Adr.FCT_S_RATE k) 0 7) (s.fld (Adr.FCT_S_RATE k) 8 6)),
   (Adr.FCT_S_TC_CTL k, dropOk (s.reg (Adr.FCT_S_TC_CTL k)) && tcRateOk (s.reg (Adr.FCT_S_TC_CTL k))),
   (Adr.FCT_S_CTL k, !bit c 0 || s.srcOf k < s.nLnd),
   (Adr.FCT_S_RQ k, !bit c 0 || s.qNamedOk rq),
   (Adr.FCT_S_SLOT k, !(bit c 0 && bits c 1 2 = 2) || s.slotOk k (s.reg (Adr.FCT_S_SLOT k)).toNat)]

/-- Lane queues (R133): checked where the image sets FCT_LQ_BASE or a record stream needs it. -/
def State.chkLanes (s : State) (e : Nat) : List (Nat × Bool) :=
  let b := s.fld (Adr.FCT_LQ_BASE e) 0 12
  let lanes := List.range' b 8
  let used := b ≠ 0 || (List.range 4).any fun k => s.flag (Adr.FCT_S_CTL k) 0
  [(Adr.FCT_LQ_BASE e, !used || (16 ≤ b && b ≤ 4088 && lanes.all s.qEnabled &&
      lanes.all (fun q => !s.queueUsed q) &&
      (List.range s.nFct).all fun f => f = e || disjoint [(b, b + 8), (s.laneQ f 0, s.laneQ f 0 + 8)]))]

def State.chkPlay (s : State) (p : Nat) : List (Nat × Bool) :=
  let c := s.reg (Adr.FCT_P_CTL p)
  let on := bit c 0
  let w := s.fld (Adr.FCT_P_GEOM p) 0 16
  let h := s.fld (Adr.FCT_P_GEOM p) 16 16
  let size := 4096 * s.fld (Adr.FCT_P_OUT_CTL p) 8 20
  [(Adr.FCT_P_CTL p, (bits c 1 2 = 1 || bits c 1 2 = 2) && bits c 7 2 ≠ 3 && divOk (bits c 9 7) (bits c 16 6)),
   (Adr.FCT_P_IO p, !on || (s.qNamedOk (s.pInq p) && (s.pOutq p = 0 || s.qNamedOk (s.pOutq p)))),
   (Adr.FCT_P_OUT_CTL p, !on || 32768 + h * roundUp (rowBytes (bits c 7 2) w) 256 ≤ size),
   (Adr.FCT_P_STG_LO p, !on || s.aligned (Adr.FCT_P_STG_LO p) 4096),
   (Adr.FCT_P_OUT_LO p, !on || s.aligned (Adr.FCT_P_OUT_LO p) 4096)]

/-! ### Codec contexts (R25, R138, R141 to R146, R150, R151, R154, R164, R166, R167, R191, R194) -/

/-- Bytes of the planes of the largest picture that a context decodes, each row of every plane PITCH bytes apart (R191). -/
def State.planeBytes (s : State) (c : Nat) : Nat :=
  let w := s.cWidth c
  let h := s.cHeight c
  let p := s.fld (Adr.COD_C_CTL c) 4 3
  let sub := if p = 2 ∨ p = 3 ∨ p = 5 then 1 else 2
  (h + 2 * ceilDiv h sub) * roundUp (2 * w) 256

def State.chkCtxAlways (s : State) (c : Nat) : List (Nat × Bool) :=
  let v := s.reg (Adr.COD_C_CTL c)
  [(Adr.COD_C_CTL c, bits v 2 2 ≠ 3 && divOk (bits v 9 7) (bits v 16 6)),
   (Adr.COD_C_FMT c, s.fld (Adr.COD_C_FMT c) 9 2 ≠ 3),
   (Adr.COD_C_RC c, rcOk (s.reg (Adr.COD_C_RC c))),
   (Adr.COD_C_SLICE c, s.fld (Adr.COD_C_SLICE c) 24 2 < 2),
   (Adr.COD_C_SEI c, dropOk (s.reg (Adr.COD_C_SEI c)) && tcRateOk (s.reg (Adr.COD_C_SEI c)))]

/-- The checks of an enabled context. LIVE contexts run only on the reserved engine (R32), so that an image whose LIVE context names another
is refused, and so is one with 10 bits under Main (R138); that these two are refusals is deduced (log 1806). -/
def State.chkCtxOn (s : State) (c : Nat) : List (Nat × Bool) :=
  let v := s.reg (Adr.COD_C_CTL c)
  let prof := bits v 4 3
  let live := bits v 2 2 = 0
  let outq := s.fld (Adr.COD_C_IO c) 16 12
  let own : List (Nat × Bool) := [(Adr.COD_C_CTL c, !(s.fuse.m && (bit v 7 || bit v 8)) && !(bit v 7 && live)),
    (Adr.COD_C_IO c, s.qNamedOk (s.cQueue c)),
    (Adr.COD_C_REF_LO c, s.aligned (Adr.COD_C_REF_LO c) 4096)]
  if bit v 1 then
    let dec : List (Nat × Bool) := [(Adr.COD_C_CTL c, prof ≤ 5 && !live),
      (Adr.COD_C_IO c, outq = 0 || s.qNamedOk outq),
      (Adr.COD_D_CTL c, s.ferryMode (s.fld (Adr.COD_D_CTL c) 3 2)),
      (Adr.COD_D_OUT_CTL c, 32768 + s.planeBytes c ≤ 4096 * s.fld (Adr.COD_D_OUT_CTL c) 8 20),
      (Adr.COD_D_OUT_LO c, s.aligned (Adr.COD_D_OUT_LO c) 4096)]
    own ++ dec
  else
    let g := s.cSrc c
    let st := s.fld (Adr.COD_C_GOP c) 0 2
    let mini := s.fld (Adr.COD_C_GOP c) 4 4
    let enc : List (Nat × Bool) := [(Adr.COD_C_CTL c, prof ≤ 3 && !(live && s.fld (Adr.COD_C_CTL c) 8 1 ≠ s.fld Adr.COD_GLB_CTL 0 1)),
      (Adr.COD_C_IO c, g < s.nLnd && s.lgMode g = 1 && s.lgPos g = 0),
      (Adr.COD_C_GEOM c, s.reg (Adr.COD_C_GEOM c) = s.reg (Adr.LND_GEOM g)),
      (Adr.COD_C_FMT c, (!live || s.fld (Adr.COD_C_FMT c) 9 2 = s.fld (Adr.LND_FB_CTL g) 4 2) &&
        !(prof = 0 && s.flag (Adr.COD_C_FMT c) 11)),
      (Adr.COD_C_GOP c, !(prof = 3 && st ≠ 0) && !(live && st = 3) && !(st = 3 && mini ≠ 4 && mini ≠ 8)),
      (Adr.COD_C_SLICE c, !(live && s.fld (Adr.COD_C_SLICE c) 24 2 ≠ 0) && s.sliceOk c (s.fld (Adr.COD_C_SLICE c) 0 24))]
    own ++ enc

/-- Contexts on engine e by the table (R143). -/
def State.ctxCount (s : State) (e : Nat) : Nat :=
  ((List.range s.nCtx).filter fun c => s.cEn c && (s.cSplit c || s.fld (Adr.COD_C_CTL c) 8 1 = e)).length

def State.chkCod (s : State) : List (Nat × Bool) :=
  ([(Adr.COD_GLB_CTL, !(s.fuse.m && s.flag Adr.COD_GLB_CTL 0)),
   (Adr.COD_C_CTL 0, s.ctxCount 0 ≤ 32 && s.ctxCount 1 ≤ 32)] : List (Nat × Bool)) ++
  (List.range s.nCtx).flatMap fun c => s.chkCtxAlways c ++ (if s.cEn c then s.chkCtxOn c else [])

/-! ### The sequencer's lists (R195, R196, R224, R502) -/

/-- A list is used unless all its registers hold their reset values. -/
def State.listUsed (s : State) (l : Nat) : Bool :=
  [Adr.SEQ_L_CTL l, Adr.SEQ_L_STEPS l, Adr.SEQ_L_ABORT l, Adr.SEQ_L_BUDGET l].any fun a => s.reg a ≠ regReset s.fuse a

/-- The divisor and phase of the stream that a list is bound to; none where there is no such stream. -/
def State.streamRate (s : State) (kind num : Nat) : Option (Nat × Nat) :=
  match kind with
  | 0 => if num < 4 then some (s.fld (Adr.FCT_S_RATE num) 0 7, s.fld (Adr.FCT_S_RATE num) 8 6) else none
  | 1 => if num < s.nCtx then some (s.cDiv num, s.cPhase num) else none
  | 2 => if num < 4 then some (s.fld (Adr.FCT_P_CTL num) 9 7, s.fld (Adr.FCT_P_CTL num) 16 6) else none
  | _ => if num = 0 then some (1, 0) else none

def State.chkSeq (s : State) : List (Nat × Bool) :=
  let used := (List.range 128).filter s.listUsed
  let span (l : Nat) : Nat × Nat := (s.fld (Adr.SEQ_L_STEPS l) 0 12, s.fld (Adr.SEQ_L_STEPS l) 16 12 + 1)
  used.flatMap (fun l => show List (Nat × Bool) from
    [(Adr.SEQ_L_CTL l, s.listClass l ≠ 3 && divOk (s.fld (Adr.SEQ_L_CTL l) 3 7) (s.fld (Adr.SEQ_L_CTL l) 10 6) &&
       s.streamRate (s.listKind l) (s.listNum l) = some (s.fld (Adr.SEQ_L_CTL l) 3 7, s.fld (Adr.SEQ_L_CTL l) 10 6) &&
       (!s.listOn l || s.listKind l = 3 || s.configured (s.listKind l + 1) (s.listNum l))),
     (Adr.SEQ_L_STEPS l, (span l).1 < (span l).2 && used.all fun m => m = l || disjoint [span l, span m])]) ++
  [(Adr.SEQ_GOLD_BASE_LO, s.aligned Adr.SEQ_GOLD_BASE_LO 4096)]

/-! ### Queues and pools (R236, R240, R243, R246, R262, R353) -/

/-- Queues of the image whose registers have been written. -/
def State.writtenQueues (s : State) : List Nat :=
  (s.regs.filterMap fun (r : Nat × Word) =>
    if 0x101000 ≤ r.1 ∧ r.1 < 0x200000 ∧ r.1 % 256 ≤ 4 then some ((r.1 - 0x100000) / 256) else none).eraseDups

def State.storeWords (s : State) : Nat := (s.enabledQueues.map fun q => s.qHead q + s.qTailW q).foldl (· + ·) 0

def State.chkQf (s : State) : List (Nat × Bool) :=
  s.writtenQueues.flatMap (fun q : Nat => show List (Nat × Bool) from
    let h := s.fld (Adr.QF_Q_STORE q) 0 8
    let t := s.fld (Adr.QF_Q_STORE q) 8 8
    let th := s.fld (Adr.QF_Q_STORE q) 16 8
    [(Adr.QF_Q_STORE q, 1 ≤ h && h ≤ 128 && 1 ≤ t && t ≤ 128 && 1 ≤ th && th ≤ t),
     (Adr.QF_Q_CFG q, s.qClass q ≠ 3 && !(s.qClass q = 0 && (!s.qNoSpill q || s.qCons q = 3)))]) ++
  ([(Adr.QF_Q_STORE (s.enabledQueues.getLast?.getD 16), s.storeWords ≤ 131072)] : List (Nat × Bool))

def State.chkPool (s : State) : List (Nat × Bool) :=
  (List.range 6).flatMap (fun k => show List (Nat × Bool) from
    [(Adr.BP_P_COUNT k, s.fld (Adr.BP_P_COUNT k) 0 25 ≤ 2 ^ 24), (Adr.BP_P_BASE_LO k, s.aligned (Adr.BP_P_BASE_LO k) 4096),
     (Adr.BP_P_RING_LO k, s.aligned (Adr.BP_P_RING_LO k) 4096), (Adr.BP_P_OWN_LO k, s.aligned (Adr.BP_P_OWN_LO k) 4096)]) ++
  (List.range 64).map fun r => show Nat × Bool from (Adr.BP_R_CTL r, s.fld (Adr.BP_R_CTL r) 1 3 ≤ 5)

/-! ### DRAM (R263, R268, R269, R292, R298) -/

/-- Enabled regions: base, end, attributes. -/
def State.regions (s : State) : List (Nat × Nat × Nat × Word) :=
  (List.range 16).filterMap fun r =>
    let x := s.rgn r
    if bit x.2.2 0 then some (r, x.1, x.1 + x.2.1, x.2.2) else none

/-- The region of the golden copy has ECC = 1 and WMASK = 0, and holds the layout of R220. -/
def State.goldOk (s : State) : Bool :=
  let g := s.pair Adr.SEQ_GOLD_BASE_LO Adr.SEQ_GOLD_BASE_HI
  s.regions.any fun r => r.2.1 ≤ g && g < r.2.2.1 && bit r.2.2.2 1 && bits r.2.2.2 16 14 = 0 && 393216 ≤ r.2.2.1 - r.2.1 &&
    g + 0x49000 ≤ r.2.1 + (r.2.2.1 - r.2.1) / 8 * 7

def State.chkDmc (s : State) : List (Nat × Bool) :=
  let pkg := s.pkgMask
  let spans := s.regions.map fun r => (r.2.1, r.2.2.1)
  [(Adr.DMC_G_CFG, (pkg = 1 || pkg = 3 || (pkg = 15 && !s.fuse.m)) && s.fld Adr.DMC_G_CFG 6 2 ≠ 3),
   (Adr.DMC_G_RTOP, s.rtop ≤ 3 * s.reloc && s.rtop + s.reloc ≤ s.chBytes)] ++
  (List.range 13).map (fun p => show Nat × Bool from
    (Adr.DMC_G_PORT p, s.fld (Adr.DMC_G_PORT p) 0 16 ≠ 0 && s.fld (Adr.DMC_G_PORT p) 16 2 ≠ 3)) ++
  s.regions.map (fun r => show Nat × Bool from
    (Adr.DMC_G_RGN_BASE r.1, r.2.2.1 ≤ s.dramCap &&
      (!bit r.2.2.2 1 || (r.2.1 % (s.nCh * 2048) = 0 && r.2.2.1 % (s.nCh * 2048) = 0)))) ++
  [(Adr.DMC_G_RGN_BASE 0, disjoint spans), (Adr.SEQ_GOLD_BASE_LO, s.goldOk)]

/-! ### The egress scheduler (R300, R308, R311, R313, R316, R333) -/

/-- Windows of class c + 1 of a port, as (start, end) in 64 ns units, the unused ones left out. -/
def State.winUnits (s : State) (p c : Nat) : List (Nat × Nat) :=
  (List.range 4).filterMap fun w =>
    let n := s.fld (Adr.SCH_P_WIN_LEN p c w) 0 24
    let a := s.fld (Adr.SCH_P_WIN_START p c w) 0 24
    if n = 0 then none else some (a, a + n)

def State.egressQueues (s : State) : List Nat := s.enabledQueues.filter fun q => s.qCons q = 1

def State.chkEgressQ (s : State) (q : Nat) : List (Nat × Bool) :=
  let p := s.qConsIdx q
  let shaped := s.flag (Adr.SCH_Q_RATE q) 31
  [(Adr.QF_Q_CFG q, 16 ≤ q && p < 2 * s.nXcv && (s.isFerry p || s.isEth p) && s.qClass q ≠ 3),
   (Adr.SCH_Q_RATE q, !(shaped && s.qClass q = 0)),
   (Adr.SCH_Q_BURST q, !shaped || s.maxUnit p ≤ s.fld (Adr.SCH_Q_BURST q) 0 24),
   (Adr.XCV_TXCH (p / 2) 0, !s.isFerry p || (List.range 64).any fun c =>
      s.flag (Adr.XCV_TXCH (p / 2) c) 15 && s.fld (Adr.XCV_TXCH (p / 2) c) 0 12 = q)]

def State.chkPort (s : State) (p : Nat) : List (Nat × Bool) :=
  let period := s.fld Adr.GLB_TICK_RATE 16 16 * 1000000000
  let num := s.fld Adr.GLB_TICK_RATE 0 16
  (List.range 2).map (fun c => (Adr.SCH_P_WIN_START p c 0,
    disjoint (s.winUnits p c) && (s.winUnits p c).all fun w => w.2 * 64 * num ≤ period)) ++
  [(Adr.SCH_P_MAXFT p, !(s.compat p && (s.isFerry p || s.isEth p)) || s.wireTime p (s.maxUnit p) ≤ s.maxFt p)]

def State.chkSch (s : State) : List (Nat × Bool) :=
  s.egressQueues.flatMap s.chkEgressQ ++ (List.range (2 * s.nXcv)).flatMap s.chkPort

/-! ### Crossing (R329, R343, R344, R350, R351) and DMA (R353, R358, R363, R369) -/

/-- A codec output queue whose packets are NAL units (R344). -/
def State.nalQueue (s : State) (q : Nat) : Bool :=
  (List.range s.nCtx).any fun c => s.cEn c && !s.cDec c && s.cQueue c = q && s.cPkg c

def State.chkXcv (s : State) (g : Nat) : List (Nat × Bool) :=
  let c := s.reg (Adr.XCV_CTL g)
  let l := s.reg (Adr.XCV_LINK g)
  let eth := bit c 1
  let tx (ch : Nat) : Nat × Bool :=
    let v := s.reg (Adr.XCV_TXCH g ch)
    let q := bits v 0 12
    let kind := bits (s.reg (Adr.XCV_TPL g ch 7)) 10 2
    (Adr.XCV_TXCH g ch, !bit v 15 || (s.qNamedOk q &&
      (!eth || (s.qCons q = 1 && s.qConsIdx q = 2 * g + bits v 16 1 && kind < 2 && (kind = 1 || s.nalQueue q)))))
  let rx (ch : Nat) : Nat × Bool := (Adr.XCV_RXCH g ch, eth || !s.rxEn g ch || s.qNamedOk (s.rxQueue g ch))
  let port (e : Nat) : List (Nat × Bool) :=
    let v := s.reg (Adr.XCV_E_CTL g e)
    let q := s.fld (Adr.XCV_E_RXQ g e) 0 12
    (Adr.XCV_E_CTL g e, !(bit v 2 && !bit v 1)) ::
    (if bit v 0 then
      (Adr.XCV_E_RXQ g e, q = 0 || s.qNamedOk q) :: (List.range 8).map fun f =>
        (Adr.XCV_E_FILT g e f, !s.flag (Adr.XCV_E_FILT g e f) 31 || s.qNamedOk (s.fld (Adr.XCV_E_FILT g e f) 16 12))
     else [])
  (Adr.XCV_CTL g, bits c 2 3 < 5 && bits c 5 2 ≠ 3) ::
  ((List.range 2).flatMap port ++
  (if !bit c 0 then [] else
    [(Adr.XCV_LINK g, eth || (1024 ≤ bits l 0 15 && bits l 0 15 ≤ 16384 && bits l 16 8 ≠ 0)),
     (Adr.XCV_TMO g, eth || s.fld (Adr.XCV_TMO g) 0 16 ≠ 0)] ++
    (List.range 64).map tx ++ (List.range 64).map rx))

/-- A descriptor that breaks the rules of R358, or that names a LIVE queue (R353). -/
def State.descBad (s : State) (d : List Word) : Bool :=
  dSrcKind d = 3 || dDstKind d = 3 || dCheck d = 3 || dFence d = 2 || (dFence d ≠ 0 && dDstKind d ≠ 2) ||
  bits (dWord d 0) 13 19 ≠ 0 || bits (dWord d 1) 28 4 ≠ 0 || dWord d 7 ≠ 0 ||
  (dSrcKind d = 2 && (s.qLive (dSrcQ d) || (dSrcQ d < 16 && dSrcQ d ≠ 4))) || (dDstKind d = 2 && (s.qLive (dDstQ d) || dDstQ d < 16))

/-- The descriptors that the image holds for a channel: its shadow set, or the entries of a ring in data memory. -/
def State.imageDescs (s : State) (k : Nat) : List (List Word) :=
  if s.fuse.m then [(List.range 8).map fun i => s.z (Adr.DMA_C_SHD k i)]
  else if s.ringLoc k = 2 then
    (List.range (2 ^ s.fld (Adr.DMA_C_RING_CFG k) 0 4)).map fun i => s.dmemWords ((s.reg (Adr.DMA_C_RING_LO k)).toNat + 64 * i) 8
  else []

def State.chkDma (s : State) (k : Nat) : List (Nat × Bool) :=
  let c := s.reg (Adr.DMA_C_CFG k)
  let r := s.reg (Adr.DMA_C_RING_CFG k)
  [(Adr.DMA_C_CFG k, bits c 0 2 ≠ 3),
   (Adr.DMA_C_RING_CFG k, s.fuse.m || (bits r 4 2 ≠ 3 && !(bits r 4 2 = 2 && !bit c 2))),
   (if s.fuse.m then Adr.DMA_C_SHD k 0 else Adr.DMA_C_RING_LO k, (s.imageDescs k).all fun d => !s.descBad d)]

/-! ### All of them -/

def State.checks (s : State) : List (Nat × Bool) :=
  s.chkLow ++ (List.range s.nLnd).flatMap s.chkLnd ++ (List.range 4).flatMap s.chkStream ++ (List.range s.nFct).flatMap s.chkLanes ++
  (List.range 4).flatMap s.chkPlay ++ s.chkCod ++ s.chkSeq ++ s.chkQf ++ s.chkPool ++ s.chkDmc ++ s.chkSch ++
  (List.range s.nXcv).flatMap s.chkXcv ++ (List.range s.nDma).flatMap s.chkDma

/-- The register of the first check that fails. -/
def State.firstBad (s : State) : Option Nat := (s.checks.find? fun x => !x.2).map (·.1)

end Sys2Proof.Machine
end

