-- ==== Sys2Proof/Machine/Operands.lean ====
section
/-! DEFINITION. The operands of microwords (R201, R202, R204): the fields of a word, the general registers, and the addresses
of data memory and of registers. -/

namespace Sys2Proof.Machine

/-! ### Fields (R201) -/

def reg4 (w : Word) (lo : Nat) : Reg := Fin.ofNat 16 (bits w lo 4)
def gdOf (w : Word) : Reg := reg4 w 22
def gaOf (w : Word) : Reg := reg4 w 18
def gbOf (w : Word) : Reg := reg4 w 14
def imm14 (w : Word) : Nat := bits w 0 14
def imm22 (w : Word) : Nat := bits w 0 22
def evtOf (w : Word) : Nat := bits w 18 8
def unitOf (w : Word) : Nat := bits w 16 2
def countOf (w : Word) : Nat := bits w 0 16

/-- IMM14 sign-extended. -/
def simm (n : Nat) : Word := BitVec.ofInt 32 (sext 14 n)

/-! ### General registers (R202) -/

/-- A general register; G0 reads 0 (R202). -/
def SList.gr (x : SList) (r : Reg) : Word := if r = 0 then 0 else x.g.getD r.val 0

/-- Sets a general register; G0 discards the write (R202). -/
def SList.setG (x : SList) (r : Reg) (v : Word) : SList := if r = 0 then x else { x with g := x.g.set r.val v }

/-- A three-register operation. -/
def SList.op2 (x : SList) (gd ga gb : Reg) (f : Word → Word → Word) : SList := x.setG gd (f (x.gr ga) (x.gr gb))

/-! ### Addresses -/

/-- The data memory word that LD and ST name. -/
def dmemIndex (base : Word) (imm : Nat) : Nat := (base.toNat + 65536 + 4 * (simm imm).toNat) % 65536 / 4

/-- BAR0 offset of RDREG and WRREG (R207). -/
def regAddr (base : Word) (imm : Nat) : Nat := (base.toNat + 4 * imm) % 2 ^ 32

end Sys2Proof.Machine
end

