-- ==== Sys2Proof/Machine/Flags.lean ====
section
/-! DEFINITION. The flags Z, N, C, T and FAIL of a step list (R202): the branch conditions, and the comparison that sets Z, N
and C. T is set where a wait ends, and FAIL by the unit commands, RDREG and WRREG. -/

namespace Sys2Proof.Machine

/-- Whether a branch condition holds (R203). -/
def SList.holds (x : SList) : Cond → Bool
  | .always => true
  | .z => x.z
  | .nz => !x.z
  | .n => x.n
  | .nn => !x.n
  | .c => x.c
  | .nc => !x.c
  | .t => x.t
  | .nt => !x.t
  | .fail => x.fail
  | .nfail => !x.fail

/-- CMP: Z, N and C (R204). -/
def SList.compare (x : SList) (ga gb : Reg) (imm : Nat) : SList :=
  let a := x.gr ga
  let b := x.gr gb + simm imm
  let t := a - b
  { x with z := t = 0, n := t.msb, c := a.ult b }

end Sys2Proof.Machine
end

