-- ==== Sys2Proof/Machine/Micro.lean ====
section
/-! DEFINITION. The microwords (R201 to R206): their encoding, the decoder and an encoder. A microword is a command of the
block; an operand of its row that the word does not hold (an instant, cycles taken, what an ECC check finds) is 0 or `good`
here. -/

namespace Sys2Proof.Machine

/-- R203. -/
def condOf : Nat → Option Cond
  | 0 => some .always
  | 1 => some .z
  | 2 => some .nz
  | 3 => some .n
  | 4 => some .nn
  | 5 => some .c
  | 6 => some .nc
  | 7 => some .t
  | 8 => some .nt
  | 9 => some .fail
  | 10 => some .nfail
  | _ => none

def condNo : Cond → Nat
  | .always => 0
  | .z => 1
  | .nz => 2
  | .n => 3
  | .nn => 4
  | .c => 5
  | .nc => 6
  | .t => 7
  | .nt => 8
  | .fail => 9
  | .nfail => 10

/-! ### The decoder -/

/-- Opcodes 0x00 to 0x13, without the reserved 0x0F (R204). -/
def decodeLow (w : Word) : Nat → Option Instr
  | 0x00 => some .nop
  | 0x01 => some .stepEnd
  | 0x02 => some .tickEnd
  | 0x03 => some .halt
  | 0x04 => some (.ldi (gdOf w) (imm22 w))
  | 0x05 => if bits w 16 6 = 0 then some (.ldhi (gdOf w) (bits w 0 16)) else none
  | 0x06 => some (.add (gdOf w) (gaOf w) (gbOf w) (imm14 w))
  | 0x07 => some (.sub (gdOf w) (gaOf w) (gbOf w) (imm14 w))
  | 0x08 => some (.and (gdOf w) (gaOf w) (gbOf w))
  | 0x09 => some (.or (gdOf w) (gaOf w) (gbOf w))
  | 0x0A => some (.xor (gdOf w) (gaOf w) (gbOf w))
  | 0x0B => some (.shl (gdOf w) (gaOf w) (imm14 w))
  | 0x0C => some (.shr (gdOf w) (gaOf w) (imm14 w))
  | 0x0D => some (.sar (gdOf w) (gaOf w) (imm14 w))
  | 0x0E => some (.cmp (gaOf w) (gbOf w) (imm14 w))
  | 0x10 => some (.ld (gdOf w) (gaOf w) (imm14 w) .good)
  | 0x11 => some (.st (gaOf w) (gbOf w) (imm14 w))
  | 0x12 => some (.rdreg (gdOf w) (gaOf w) (imm14 w) 0)
  | 0x13 => some (.wrreg (gaOf w) (gbOf w) (imm14 w) 0)
  | _ => none

/-- A Form W word that waits for a time alone: EVT is 0 and COUNT is not (R206). -/
def timed (w : Word) (i : Instr) : Option Instr := if evtOf w = 0 ∧ countOf w ≠ 0 then some i else none

/-- Opcodes 0x14 to 0x1F. -/
def decodeFlow (w : Word) : Nat → Option Instr
  | 0x14 => if bits w 16 6 = 0 then (condOf (bits w 22 4)).map fun c => .br c (bits w 0 16) else none
  | 0x15 => if bits w 16 6 = 0 then (condOf (bits w 22 4)).map fun c => .call c (bits w 0 16) else none
  | 0x16 => if bits w 0 26 = 0 then some .ret else none
  | 0x17 => if 0xF0 ≤ bits w 0 8 then some (.evtSet (bits w 0 8)) else none
  | 0x18 =>
    if evtOf w ≠ 0 ∧ reservedEvent (evtOf w) = false ∧ countOf w ≠ 0 then some (.wait (evtOf w) (unitOf w) (countOf w) 0) else none
  | 0x19 => timed w (.sleep (unitOf w) (countOf w) 0)
  | 0x1A => timed w (.fenceWr (unitOf w) (countOf w) 0)
  | 0x1B => timed w (.fenceRw (unitOf w) (countOf w) 0)
  | 0x1C => timed w (.fenceHost (unitOf w) (countOf w) 0)
  | 0x1D => some (.fenceEng (gdOf w) (imm14 w) 0)
  | 0x1E => some (.budget (gdOf w))
  | 0x1F => some (.tickno (gdOf w) (imm14 w))
  | _ => none

/-- The unit commands, 0x20 to 0x30. -/
def decodeUnit (w : Word) : Nat → Option Instr
  | 0x20 => some (.fctBand (gdOf w) (gaOf w) (gbOf w) (imm14 w))
  | 0x21 => some (.fctMove (gdOf w) (gaOf w) (gbOf w) (imm14 w))
  | 0x22 => some (.fctClose (gdOf w) (gaOf w) (gbOf w) (imm14 w))
  | 0x23 => some (.fctDec (gdOf w) (gaOf w) (gbOf w) (imm14 w))
  | 0x24 => some (.fctAbort (gdOf w) (gaOf w) (gbOf w) (imm14 w))
  | 0x25 => some (.codPic (gdOf w) (gaOf w) (gbOf w) (imm14 w))
  | 0x26 => some (.codRow (gdOf w) (gaOf w) (gbOf w) (imm14 w))
  | 0x27 => some (.outPic (gdOf w) (gaOf w) (gbOf w) (imm14 w))
  | 0x28 => some (.qMark (gdOf w) (gaOf w) (gbOf w) (imm14 w))
  | 0x29 => some (.qRewind (gdOf w) (gaOf w) (gbOf w) (imm14 w))
  | 0x2A => some (.qRelease (gdOf w) (gaOf w) (gbOf w) (imm14 w))
  | 0x2B => some (.qNote (gdOf w) (gaOf w) (gbOf w) (imm14 w))
  | 0x2C => some (.dmaGo (gdOf w) (gaOf w) (gbOf w) (imm14 w))
  | 0x2D => some (.bcSend (gdOf w) (gaOf w) (gbOf w) (imm14 w))
  | 0x2E => some (.fltReport (gdOf w) (gaOf w) (gbOf w) (imm14 w))
  | 0x2F => some (.codAbort (gdOf w) (gaOf w) (gbOf w) (imm14 w))
  | 0x30 => some (.pwrReq (gdOf w) (gaOf w) (gbOf w) (imm14 w))
  | _ => none

/-- The microword that a control store word holds; none where R206 makes the word illegal whatever the state. -/
def decodeMicro (w : Word) : Option Instr :=
  let op := bits w 26 6
  if op < 0x14 then decodeLow w op else if op < 0x20 then decodeFlow w op else decodeUnit w op

/-! ### The encoder -/

def encR (op : Nat) (gd ga gb : Reg) (imm : Nat) : Word :=
  BitVec.ofNat 32 (op * 2 ^ 26 + gd.val * 2 ^ 22 + ga.val * 2 ^ 18 + gb.val * 2 ^ 14 + imm)

def encI (op : Nat) (gd : Reg) (imm : Nat) : Word := BitVec.ofNat 32 (op * 2 ^ 26 + gd.val * 2 ^ 22 + imm)

def encJ (op : Nat) (c : Cond) (target : Nat) : Word := BitVec.ofNat 32 (op * 2 ^ 26 + condNo c * 2 ^ 22 + target)

def encW (op ev unit count : Nat) : Word := BitVec.ofNat 32 (op * 2 ^ 26 + ev * 2 ^ 18 + unit * 2 ^ 16 + count)

/-- The word of a microword, its unused fields 0; none for a row that is no microword. -/
def encodeMicro : Instr → Option Word
  | .nop => some (encR 0x00 0 0 0 0)
  | .stepEnd => some (encR 0x01 0 0 0 0)
  | .tickEnd => some (encR 0x02 0 0 0 0)
  | .halt => some (encR 0x03 0 0 0 0)
  | .ldi gd imm => some (encI 0x04 gd imm)
  | .ldhi gd imm => some (encI 0x05 gd imm)
  | .add gd ga gb imm => some (encR 0x06 gd ga gb imm)
  | .sub gd ga gb imm => some (encR 0x07 gd ga gb imm)
  | .and gd ga gb => some (encR 0x08 gd ga gb 0)
  | .or gd ga gb => some (encR 0x09 gd ga gb 0)
  | .xor gd ga gb => some (encR 0x0A gd ga gb 0)
  | .shl gd ga imm => some (encR 0x0B gd ga 0 imm)
  | .shr gd ga imm => some (encR 0x0C gd ga 0 imm)
  | .sar gd ga imm => some (encR 0x0D gd ga 0 imm)
  | .cmp ga gb imm => some (encR 0x0E 0 ga gb imm)
  | .ld gd ga imm _ => some (encR 0x10 gd ga 0 imm)
  | .st ga gb imm => some (encR 0x11 0 ga gb imm)
  | .rdreg gd ga imm _ => some (encR 0x12 gd ga 0 imm)
  | .wrreg ga gb imm _ => some (encR 0x13 0 ga gb imm)
  | .br c target => some (encJ 0x14 c target)
  | .call c target => some (encJ 0x15 c target)
  | .ret => some (encJ 0x16 .always 0)
  | .evtSet ev => some (encR 0x17 0 0 0 ev)
  | .wait ev unit count _ => some (encW 0x18 ev unit count)
  | .sleep unit count _ => some (encW 0x19 0 unit count)
  | .fenceWr unit count _ => some (encW 0x1A 0 unit count)
  | .fenceRw unit count _ => some (encW 0x1B 0 unit count)
  | .fenceHost unit count _ => some (encW 0x1C 0 unit count)
  | .fenceEng gd imm _ => some (encR 0x1D gd 0 0 imm)
  | .budget gd => some (encR 0x1E gd 0 0 0)
  | .tickno gd imm => some (encR 0x1F gd 0 0 imm)
  | .fctBand gd ga gb imm => some (encR 0x20 gd ga gb imm)
  | .fctMove gd ga gb imm => some (encR 0x21 gd ga gb imm)
  | .fctClose gd ga gb imm => some (encR 0x22 gd ga gb imm)
  | .fctDec gd ga gb imm => some (encR 0x23 gd ga gb imm)
  | .fctAbort gd ga gb imm => some (encR 0x24 gd ga gb imm)
  | .codPic gd ga gb imm => some (encR 0x25 gd ga gb imm)
  | .codRow gd ga gb imm => some (encR 0x26 gd ga gb imm)
  | .outPic gd ga gb imm => some (encR 0x27 gd ga gb imm)
  | .qMark gd ga gb imm => some (encR 0x28 gd ga gb imm)
  | .qRewind gd ga gb imm => some (encR 0x29 gd ga gb imm)
  | .qRelease gd ga gb imm => some (encR 0x2A gd ga gb imm)
  | .qNote gd ga gb imm => some (encR 0x2B gd ga gb imm)
  | .dmaGo gd ga gb imm => some (encR 0x2C gd ga gb imm)
  | .bcSend gd ga gb imm => some (encR 0x2D gd ga gb imm)
  | .fltReport gd ga gb imm => some (encR 0x2E gd ga gb imm)
  | .codAbort gd ga gb imm => some (encR 0x2F gd ga gb imm)
  | .pwrReq gd ga gb imm => some (encR 0x30 gd ga gb imm)
  | _ => none

end Sys2Proof.Machine
end

