-- ==== Sys2Proof/Machine/Tick.lean ====
section
/-! DEFINITION. The frame tick (R17 to R22, R26): its instants under each source, holdover, and everything that happens at
cycle 0 of a tick. The sequencer takes the tick later, at a boundary (Seq.lean). Readings are log 32. -/

namespace Sys2Proof.Machine

/-! ### The source (R17 to R21) -/

def State.tickSrc (s : State) : Nat := s.fld Adr.GLB_TICK_CTL 0 2
def State.tickNum (s : State) : Nat := s.fld Adr.GLB_TICK_RATE 0 16
def State.tickDen (s : State) : Nat := s.fld Adr.GLB_TICK_RATE 16 16
def State.tickTol (s : State) : Nat := s.fld Adr.GLB_TICK_CTL 8 8
def State.holdoverEn (s : State) : Bool := s.flag Adr.GLB_TICK_CTL 5

/-- The edge comes from the selected source; of TICK_IN it is the edge that EDGE selects (R17, R22). -/
def State.selected (s : State) : TickEdge → Bool
  | .tickIn rising => s.tickSrc = 0 && rising == !s.flag Adr.GLB_TICK_CTL 4
  | .sensor g => s.tickSrc = 1 && s.fld Adr.GLB_TICK_CTL 2 2 = g

/-- An edge at the present instant is early (R19). -/
def State.early (s : State) : Bool :=
  match s.clk.lastTick with
  | none => false
  | some l =>
    let d := s.clk.now - l
    d < 1000000 || d * 256 * s.tickNum < (256 - s.tickTol) * s.tickDen * 1000000000

/-- The deadline of R20 has passed. Before the first tick there is no last tick to count it from; that no deadline passes then is
the model's choice (log 3212). -/
def State.overdue (s : State) : Bool :=
  match s.clk.lastTick with
  | none => false
  | some l => (256 + s.tickTol) * s.tickDen * 1000000000 ≤ (s.clk.now - l) * 256 * s.tickNum

/-- A nominal period has passed since the last tick. -/
def State.periodOver (s : State) : Bool :=
  match s.clk.lastTick with
  | none => false
  | some l => s.tickDen * 1000000000 / max 1 s.tickNum ≤ s.clk.now - l

/-- The k of the last tick instant at or before a time in ns (R17). -/
def State.instantAt (s : State) (t : Nat) : Nat := t * s.tickNum / (max 1 s.tickDen * 1000000000)

/-- The k of the selected source at the present instant: of PTP time or of local time. -/
def State.kNow (s : State) : Option Nat :=
  if s.tickSrc = 2 then some (s.instantAt s.ptpNow)
  else if s.tickSrc = 3 then some (s.instantAt s.clk.now)
  else none

/-- The instant is later than the last tick's, in the time that the source counts (R348). -/
def State.newInstant (s : State) : Bool :=
  match s.clk.lastK, s.kNow with
  | some l, some k => l < k
  | _, _ => true

/-! ### Cycle 0 of a tick (R26) -/

/-- The tick counter (R21). -/
def State.countTick (s : State) : State :=
  let n := if s.tickSrc = 2 then s.instantAt s.ptpNow else match s.clk.lastTick with
    | none => 0
    | some _ => s.clk.count + 1
  { s with clk := { s.clk with count := n % 2 ^ 48, prevTick := s.clk.lastTick, lastTick := some s.clk.now } }

/-- Free buffers of the pools at the tick (R26). -/
def State.snapPools (s : State) : State := iter (List.range 6) (fun k s => s.setRegN (Adr.BP_P_SNAP_FREE k) (s.poolFree k)) s

/-- Every RWT value written takes force, but for the slice mode of a context, which holds from boot (R12, R167). -/
def State.forceRwt (s : State) : State :=
  let isSlice (a : Nat) : Bool := 0xD08100 ≤ a && a < 0xD09100 && a % 64 = 0x20
  let new := (s.regs.filter fun (r : Nat × Word) => regAcc r.1 = some .rwt).map fun (r : Nat × Word) =>
    if isSlice r.1 then (r.1, putBits r.2 24 2 (bits (s.inForce r.1) 24 2)) else r
  { s with force := new }

/-- The values take force, and the shapers go on from their balances under the old values (R310); producers that a limit
stalled are tried again (R239). -/
def State.takeForce (s : State) : State :=
  let was := (s.sch.queues.map (·.1)).map fun q => (q, s.balanceAt q s.clk.now, s.inForce (Adr.SCH_Q_RATE q), s.inForce (Adr.SCH_Q_BURST q))
  let s := s.forceRwt
  let s := iter was (fun (x : Nat × Int × Word × Word) s =>
    if s.inForce (Adr.SCH_Q_RATE x.1) = x.2.2.1 ∧ s.inForce (Adr.SCH_Q_BURST x.1) = x.2.2.2 then s else s.reshape x.1 x.2.1) s
  iter ((s.qf.filter fun (x : Nat × Queue) => x.2.stall.isSome).map (·.1)) (fun q s => s.pumpAll q) s

/-- PTP time is latched at the last 64 ticks (R343). -/
def State.latchPtp (s : State) : State := s.modPtp fun p => { p with latches := ((s.clk.count, s.ptpNow) :: p.latches).take 64 }

/-- COD_LOAD of the interval that ends (R167). -/
def State.codLoads (s : State) : State :=
  let d := s.clk.now - s.clk.prevTick.getD s.clk.now
  iter (List.range s.nCod) (fun e s =>
    let n := if d = 0 then 0 else min 1000 ((s.ce e).busy * 1000 / d)
    (s.setRegN (Adr.COD_LOAD e) n).modCe e fun x => { x with busy := 0, hist := (n :: x.hist).take 8 }) s

/-- The sum of the last 8 loads of an engine (R436). -/
def State.loadSum (s : State) (e : Nat) : Nat := (s.ce e).hist.foldl (· + ·) 0

/-- A context that the placement loop may move from a to b (R436): not split, not LIVE, not moved within 64 ticks, and fit for b
under R143, R148 and R159. -/
def State.movable (s : State) (b c : Nat) : Bool :=
  let live := (s.ctxOn b).any fun o => s.cClass o = 0
  s.cClass c ≠ 0 && !s.cSplit c && (s.cx c).goTo.isNone && (s.cx c).moved.all (fun t => t + 64 ≤ s.clk.count) &&
    (s.ctxOn b).length < 32 && !(live && s.cDec c) && !(live && s.flag (Adr.COD_C_GOP c) 3)

/-- PLACEMENT_MOVE: at most one context moves from an engine above 900 to one below 700 (R434, R436). -/
def State.place (s : State) : State :=
  if s.fuse.m || !s.flag Adr.PWR_LOOP 3 || s.codInService.length ≠ 2 then s
  else
    let go (a b : Nat) (s : State) : State :=
      match ((s.ctxOn a).filter (s.movable b)).getLast? with
      | none => s
      | some c => ((s.modCx c fun x => { x with moved := some s.clk.count, goTo := some b }).codEvt b 2).codGo c
    if 7200 < s.loadSum 0 ∧ s.loadSum 1 < 5600 then go 0 1 s
    else if 7200 < s.loadSum 1 ∧ s.loadSum 0 < 5600 then go 1 0 s
    else s

/-- A time code at a tick of its stream: the value loaded, or the next frame (R111). -/
def State.tcAt (s : State) (load ctl : Nat) (own : Bool) (w : Word) : Word :=
  if s.loads.contains load then s.inForce load
  else if own then tcNext (s.fld ctl 2 6) (s.flag ctl 8) w else w

/-- A Facet record stream at a tick (R110 to R113). -/
def State.recordTick (s : State) (k : Nat) : State :=
  let r := Adr.FCT_S_RATE k
  let own := s.streamRuns 0 k && isTickOf s.clk.count (s.fld r 0 7) (s.fld r 8 6)
  let x := s.fs k
  let missed := own && 0 < x.ticks && !x.took
  let s := if missed then s.bump (Adr.FCT_S_CNT_GAP k) else s
  s.setFs k { x with
    resync := x.resync || x.keyAsked
    keyAsked := false
    tc := s.tcAt (Adr.FCT_S_TC_LOAD k) (Adr.FCT_S_TC_CTL k) own x.tc
    gap := x.gap || missed
    took := x.took && !own
    ticks := x.ticks + b2n own }

/-- A codec context at a tick (R147, R163, R186). -/
def State.ctxTick (s : State) (c : Nat) : State :=
  if !s.cEn c then s
  else
    let own := s.streamRuns 1 c && isTickOf s.clk.count (s.cDiv c) (s.cPhase c)
    let x := s.cx c
    let s := s.setCx c { x with
      keyDue := x.keyDue || x.keyAsked
      keyAsked := false
      tc := s.tcAt (Adr.COD_C_TC_LOAD c) (Adr.COD_C_SEI c) own x.tc
      gap := x.gap || s.loads.contains (Adr.COD_C_TC_LOAD c)
      ticks := x.ticks + b2n own
      episode := x.episode.map (· + b2n own) }
    if x.reqNext then s.sendKey c else s

/-- A Facet playback stream at a tick. -/
def State.playTick (s : State) (p : Nat) : State :=
  let own := s.pEn p && s.streamRuns 2 p && isTickOf s.clk.count (s.fld (Adr.FCT_P_CTL p) 9 7) (s.fld (Adr.FCT_P_CTL p) 16 6)
  s.modPs p fun x => { x with ticks := x.ticks + b2n own }

/-- One of its own ticks passes for a list that waits in ticks (R210). -/
def SList.waitTick (x : SList) : SList :=
  { x with susp := x.susp.map fun w => match w.2 with
    | .ticks n => (w.1, .ticks (n - 1))
    | .at_ t => (w.1, .at_ t) }

/-- The waits of suspended lists in units of their own ticks count (R210). -/
def State.waitTick (s : State) : State :=
  let one (l : Nat × SList) : Nat × SList :=
    if isTickOf s.clk.count (s.fld (Adr.SEQ_L_CTL l.1) 3 7) (s.fld (Adr.SEQ_L_CTL l.1) 10 6) then (l.1, l.2.waitTick) else l
  { s with seq := { s.seq with lists := s.seq.lists.map one } }

/-- The streams at a tick. -/
def State.streamTicks (s : State) : State :=
  let s := iter (List.range 4) (fun k s => s.recordTick k) s
  let s := iter (List.range s.nCtx) (fun c s => s.ctxTick c) s
  let s := iter (List.range 4) (fun p s => s.playTick p) s
  { s.waitTick with loads := [] }

/-- TICK (R26): the counter, the snapshots, the RWT values; takeover and moves of retired engines, the clocks, overdrive, the
end of a thermal shutdown, the streams, and the requests that wait for a tick. The sequencer takes the tick at a boundary. -/
def State.tick (s : State) : State :=
  let s := s.countTick
  let c := s.clk
  let s := s.snapQueues.snapPools.schSnap
  let s := s.takeForce.latchPtp
  let s := s.takeover.codTick.codLoads.place
  let s := s.clkTick.odTick.thermalTick
  let s := s.streamTicks
  let s := s.tickReqs
  let s := s.raise Adr.GLB_EVT 0
  { s with clk := { c with lastK := s.kNow, waiting := c.waiting ++ [c.count] } }

/-! ### The tick commands -/

/-- An edge of the selected source (R19, R20). -/
def State.tickEdge (s : State) (src : TickEdge) : State :=
  if !s.boot.done || !s.selected src then s
  else if s.early then s.bump Adr.GLB_TICK_EARLY
  else
    let s := if s.clk.holdover then { s.raise Adr.GLB_EVT 2 with clk := { s.clk with holdover := false } } else s
    s.tick

/-- The PTP time (source 2) or the local time (source 3) reaches an instant of R17. -/
def State.tickInstant (s : State) (src : Nat) : State :=
  if s.boot.done && s.tickSrc = src && s.newInstant then s.tick else s

/-- The deadline passes without an edge (R20). -/
def State.tickHoldover (s : State) : State :=
  if s.boot.done && s.tickSrc < 2 && !s.clk.holdover && s.overdue then
    let s := s.raise Adr.GLB_EVT 1
    let s := { s with clk := { s.clk with holdover := true } }
    if s.holdoverEn then (s.bump Adr.GLB_TICK_MISSED).tick else s
  else s

/-- A synthesised tick of holdover (R20). -/
def State.holdoverTick (s : State) : State :=
  if s.boot.done && s.tickSrc < 2 && s.clk.holdover && s.holdoverEn && s.periodOver then (s.bump Adr.GLB_TICK_MISSED).tick else s

/-- LIVE_OVERRUN (R28): reported for the context whose slice is late. -/
def State.liveOverrun (s : State) (c : Nat) : State :=
  if s.cEn c && s.cClass c = 0 then s.reportHw 4 0x0100 (target 2 c) else s

end Sys2Proof.Machine
end

