-- ==== Sys2Proof/Machine/Seq.lean ====
section
/-! DEFINITION. The frame sequencer (R195 to R217): step lists, step runs, boundaries, the tick in the sequencer, illegal
microwords, and what every microword shares. Readings are log 33. -/

namespace Sys2Proof.Machine

/-! ### Lists -/

def State.setSl (s : State) (l : Nat) (x : SList) : State := { s with seq := { s.seq with lists := tset SList.fresh s.seq.lists l x } }

def State.modSl (s : State) (l : Nat) (f : SList → SList) : State := s.setSl l (f (s.sl l))

def State.modSeq (s : State) (f : Sequencer → Sequencer) : State := { s with seq := f s.seq }

def State.listDiv (s : State) (l : Nat) : Nat := s.fld (Adr.SEQ_L_CTL l) 3 7
def State.listPhase (s : State) (l : Nat) : Nat := s.fld (Adr.SEQ_L_CTL l) 10 6
def State.listFirst (s : State) (l : Nat) : Nat := s.fld (Adr.SEQ_L_STEPS l) 0 12
def State.listLast (s : State) (l : Nat) : Nat := s.fld (Adr.SEQ_L_STEPS l) 16 12
def State.listBudget (s : State) (l : Nat) : Nat := s.fld (Adr.SEQ_L_BUDGET l) 0 24

/-- Fields of step entry i (R196). -/
def State.stepEntry (s : State) (i : Nat) : Nat := bits (s.z (Adr.SEQ_SCHED (2 * i))) 0 16
def State.stepTrig (s : State) (i : Nat) : Nat := bits (s.z (Adr.SEQ_SCHED (2 * i))) 16 8
def State.stepBudget (s : State) (i : Nat) : Nat := bits (s.z (Adr.SEQ_SCHED (2 * i + 1))) 0 11

/-- The list has work of a tick that is not DONE (R213). -/
def SList.unfinished (x : SList) : Bool := x.st = 1 || x.st = 2 || x.st = 3

/-- TARGET of the stream that a list is bound to (R380); 0 for device work. -/
def State.listTarget (s : State) (l : Nat) : Nat := if s.listKind l = 3 then 0 else target (s.listKind l + 1) (s.listNum l)

/-- The event a list waits on: that of its WAIT, until it is consumed or timed out, or its step's TRIG (R209). -/
def State.waitsOn (s : State) (x : SList) : Option Nat :=
  match x.susp with
  | some (.event e, _) => some e
  | some _ => none
  | none => if x.enter && (x.st = 1 || x.st = 3) && s.stepTrig x.step ≠ 0 then some (s.stepTrig x.step) else none

/-- Another list waits on the event (R209). -/
def State.contested (s : State) (l e : Nat) : Bool := s.seq.lists.any fun (y : Nat × SList) => y.1 ≠ l && s.waitsOn y.2 = some e

/-! ### The end of a run (R197, R199) -/

/-- The run's cycles are judged: the class limit, the step's BUDGET, the interval budget, the longest run. -/
def State.judgeRun (s : State) (l : Nat) : State :=
  let x := s.sl l
  let n := s.seq.run
  let s := s.bump Adr.SEQ_CNT_RUNS
  let s := if s.fld Adr.SEQ_MAXRUN 0 11 < n then s.setRegN Adr.SEQ_MAXRUN (sat 2047 n + 65536 * l) else s
  let s := if (if s.listClass l = 0 then 64 else s.fld Adr.SEQ_STEP_MAX 0 11) < n then
      (s.raise Adr.SEQ_EVT 0).reportHw 4 0 0 l n else s
  let s := if !x.abort && s.stepBudget x.step < n then (s.bump Adr.SEQ_CNT_LONG).raise Adr.SEQ_EVT 1 else s
  if s.listBudget l ≠ 0 ∧ s.listBudget l < x.used ∧ !x.late then (s.raise Adr.SEQ_EVT 1).modSl l fun x => { x with late := true }
  else s

def State.endRun (s : State) (l : Nat) : State := (s.judgeRun l).modSeq fun q => { q with cur := none, run := 0 }

/-- The stream of a list stops: the enables of its lists read 0 (R502); a device-work list stops alone. -/
def State.stopLists (s : State) (l : Nat) : State :=
  iter (if s.listKind l = 3 then [l] else s.boundLists (s.listKind l) (s.listNum l)) (fun m s => s.setFld (Adr.SEQ_L_CTL m) 0 1 0) s

def State.halted (s : State) (l : Nat) : State := s.modSl l fun x => { x with st := 5, susp := none, past := none, enter := false }

/-- ILLEGAL (R206): steps 1 and 2; the stream stops at the next tick. -/
def State.illegal (s : State) (l : Nat) (trig : Bool) (addr : Nat) : State :=
  let s := ((s.halted l).raise Adr.SEQ_EVT 5).reportSw 4 5 0 l addr
  let s := s.setRegN Adr.SEQ_LAST_ERR (addr % 65536 + 65536 * l + 2 ^ 23 * b2n trig)
  s.modSeq fun q => { q with stops := q.stops ++ [l] }

/-- An error that halts the list and stops its stream at once (R204, R220). -/
def State.haltNow (s : State) (l : Nat) : State := (s.halted l).stopLists l

/-! ### Steps -/

/-- The list reaches a step (R196, R197, R206). -/
def State.enterStep (s : State) (l i : Nat) : State :=
  let e := s.stepTrig i
  let s := s.modSl l fun x => { x with step := i, pc := s.stepEntry i, enter := true, susp := none, past := none, st := 1 }
  if e = 0 then s
  else if reservedEvent e || s.contested l e then s.illegal l true i
  else s.modSl l fun x => { x with st := 3 }

/-- The list starts at FIRST for a tick; its picture Clasp is that of the new work. -/
def State.firstStep (s : State) (l : Nat) : State := (s.modSl l fun x => { x with clasp := none }).enterStep l (s.listFirst l)

/-- The list reaches TICK_END: an owed tick goes straight back to FIRST while the list is enabled (R214). -/
def State.tickDone (s : State) (l : Nat) : State :=
  let x := s.sl l
  if x.abort then s.modSl l fun x => { x with st := 4, abort := false, clasp := none }
  else if 0 < x.owed ∧ s.listOn l then (s.modSl l fun x => { x with owed := x.owed - 1 }).firstStep l
  else s.modSl l fun x => { x with st := 4, owed := 0 }

/-! ### Boundaries (R198, R209 to R211) -/

/-- A suspended list's wait is a fence. -/
def Susp.isFence : Susp → Bool
  | .fence _ => true
  | _ => false

/-- A wait's time has passed. -/
def State.passed (s : State) : Until → Bool
  | .at_ t => t ≤ s.clk.now
  | .ticks n => n = 0

/-- A wait ends: READY, with the T that its resumption takes. -/
def State.waitOver (s : State) (l : Nat) (keep : Bool) (t : Bool) : State :=
  s.modSl l fun x => { x with st := 1, susp := if keep then x.susp else none, past := some t }

/-- A wait ends by its time: the list is READY with that T at once (R210). -/
def State.timeUp (s : State) (l : Nat) (t : Bool) : State := (s.waitOver l false t).modSl l fun x => { x with t := t }

/-- A wait or fence times out (R210, R212). -/
def State.timeOut (s : State) (l : Nat) : State := (s.bump Adr.SEQ_CNT_TMO).timeUp l true

/-- One list's wait at a boundary (R209, R210). -/
def State.resolve (s : State) (l : Nat) : State :=
  let x := s.sl l
  if x.st ≠ 3 then s
  else match x.susp with
    | some (.event e, u) => if 0 < tget 0 s.evts e then s.waitOver l true false else if s.passed u then s.timeOut l else s
    | some (.sleep, u) => if s.passed u then s.timeUp l false else s
    | some (.fence _, u) => if s.passed u then s.timeOut l else s
    | none => if x.enter && 0 < tget 0 s.evts (s.stepTrig x.step) then s.modSl l fun x => { x with st := 1 } else s

/-- The counts that a stream's start or stop clears (R211). -/
def State.clearEvents (s : State) : State :=
  { s with evts := s.evts.filter fun (e : Nat × Nat) => !s.seq.clear.contains e.1 }.modSeq fun q => { q with clear := [] }

/-- READY lists of the lowest class that has one, and the one after the list served last (R198). -/
def State.selectList (s : State) : Option Nat :=
  let ready := (s.seq.lists.filter fun (x : Nat × SList) => x.2.st = 1).map (·.1)
  match least? (ready.map s.listClass) with
  | none => none
  | some k =>
    let l := ready.filter fun m => s.listClass m = k
    match least? (l.filter (s.seq.served.getD k 127 < ·)) with
    | some m => some m
    | none => least? l

/-- A list is selected: it consumes the occurrence that satisfied it, and resumes with the T of its wait (R209, R210). -/
def State.startRun (s : State) (l : Nat) : State :=
  let x := s.sl l
  let s := match s.waitsOn x with
    | some e => { s with evts := tset 0 s.evts e (tget 0 s.evts e - 1) }
    | none => s
  let s := s.setSl l { x with st := 2, t := x.past.getD x.t, susp := none, past := none, enter := false }
  s.modSeq fun q => { q with cur := some l, run := 0, served := q.served.set (s.listClass l) l }

/-! ### Streams that start and stop (R197, R211, R502) -/

/-- The Landing groups that a stream names as its source (R43, R211). -/
def State.sourceGroups (s : State) (kind num : Nat) : List Nat :=
  if kind = 0 then s.gang (s.srcOf num) else if kind = 1 ∧ !s.cDec num then [s.cSrc num] else []

/-- The event lines of a stream's own (R211). -/
def State.ownLines (s : State) (kind num : Nat) : List Nat :=
  let others := s.runningLists.filter fun m => !(s.listKind m = kind && s.listNum m = num)
  let named := others.flatMap fun l => s.sourceGroups (s.listKind l) (s.listNum l)
  let groups := (s.sourceGroups kind num).filter fun g => !named.contains g
  (groups.flatMap fun g => [0x01 + g, 0x04 + g, 0x07 + g, 0x0A + g]) ++
    (if kind = 1 then [0x20 + num, 0x60 + num] else if kind = 2 then [0xA0 + num, 0xA4 + num] else [])

/-- The output queue of a stream. -/
def State.streamQueue (s : State) (kind num : Nat) : Nat :=
  if kind = 0 then s.fld (Adr.FCT_S_RQ num) 0 12 else if kind = 1 then (if s.cDec num then s.fld (Adr.COD_C_IO num) 16 12 else s.cQueue num)
  else s.pOutq num

/-- RTP numbering starts anew at the stream's start (R343). -/
def State.restartRtp (s : State) (q : Nat) : State :=
  let one (g : Nat) (t : Nat × Tpl) : Nat × Tpl :=
    if s.fld (Adr.XCV_TXCH g t.1) 0 12 = q then (t.1, { t.2 with rtp := 0 }) else t
  let tpls (x : Nat × XGroup) : Nat × XGroup := (x.1, { x.2 with tpl := x.2.tpl.map (one x.1) })
  { s with xcv := s.xcv.map tpls }

/-- A Facet record stream starts: nothing of an earlier run is left. -/
def State.startRecord (s : State) (k : Nat) : State :=
  let s := { s with fct := { s.fct with engines := s.fct.engines.map fun (e : Nat × FEngine) =>
    (e.1, { e.2 with queue := e.2.queue.filter fun b => b.1 ≠ k }) } }
  let s := iter (List.range s.nFct) (fun e s => if (s.eng e).work.any fun w => w.stream = k then (s.fctAbort e).2 else s) s
  let one (g : Nat × LGroup) : Nat × LGroup :=
    if s.lgStream g.1 = k && s.lgMode g.1 = 0 then (g.1, { g.2 with pic := g.2.pic.map fun p => { p with ord := none } }) else g
  let s := { s with lnd := s.lnd.map one }
  s.setFs k FStream.fresh

/-- A codec context starts: it keeps its engine, and a LIVE one's state is loaded into the second bank (R160). -/
def State.startContext (s : State) (c : Nat) : State :=
  let s := s.codEnd c
  let x := s.cx c
  let s := iter (List.range s.nCod) (fun e s => s.modCe e fun y => { y with
    cur := if y.cur = some c then none else y.cur, ready := y.ready.erase c }) s
  let s := { s with lnd := s.lnd.map fun (g : Nat × LGroup) => (g.1, { g.2 with fbHeld := g.2.fbHeld.filter fun b => b.2 ≠ c }) }
  (s.setCx c { Ctx.fresh with engine := x.engine, parked := x.parked, moved := x.moved, goTo := x.goTo, both := x.both }).loadBank c

def State.startStream (s : State) (kind num : Nat) : State :=
  let s := s.restartRtp (s.streamQueue kind num)
  if kind = 0 then s.startRecord num
  else if kind = 1 then s.startContext num
  else s.modPs num fun x => { x with closed := [] }

/-- A context that stops codes what it has taken as far as it goes (R146). -/
def State.stopStream (s : State) (kind num : Nat) : State :=
  if kind = 1 ∧ !s.cDec num then
    (((s.flushCtx num).codWait num).freeBank num)
  else s

/-- The registers and flags of a list are 0 when its stream starts (R197); work of its own that still runs goes on. -/
def State.startList (s : State) (l : Nat) : State :=
  s.modSl l fun x =>
    if x.unfinished then { x with g := List.replicate 16 0, z := false, n := false, c := false, t := false, fail := false, owed := 0 }
    else SList.fresh

/-- An enable change takes effect (R211, R213 step 5). -/
def State.setEnable (s : State) (l : Nat) (on : Bool) : State :=
  let kind := s.listKind l
  let num := s.listNum l
  let was := s.streamRuns kind num
  let s := s.setFld (Adr.SEQ_L_CTL l) 0 1 (b2n on)
  let s := if on then s.startList l else s
  if s.streamRuns kind num = was then s
  else
    let s := if on then s.startStream kind num else s.stopStream kind num
    s.modSeq fun q => { q with clear := q.clear ++ s.ownLines kind num }

/-! ### The tick in the sequencer (R29, R30, R213, R214, R217) -/

/-- A list owes the tick (R214). -/
def State.oweTick (s : State) (l : Nat) : State :=
  let x := s.sl l
  let s := if 15 ≤ x.owed then s.reportStream 4 0x0106 (s.listTarget l) 2 else s
  (s.modSl l fun x => { x with owed := sat 15 (x.owed + 1) }).bump (Adr.SEQ_LS_OWECNT l)

/-- A LIVE or RECORD list at one of its ticks. -/
def State.tickList (s : State) (l : Nat) : State :=
  if (s.sl l).unfinished then
    let s := if s.listClass l = 0 then s.reportHw 4 0x0100 (s.listTarget l) l else s
    s.oweTick l
  else s.firstStep l

/-- LAG, RECORD_LAG and the drop requests of a tick (R30, R62). -/
def State.lagTick (s : State) (behind : Bool) : State :=
  let n := if behind then sat 255 (s.clk.lag + 1) else 0
  let s := { s with clk := { s.clk with lag := n } }
  let s := if behind then s.bumpFld Adr.GLB_OVR_CNT 0 16 1 else s
  let s := if n = 2 then s.raise Adr.GLB_EVT 3 else s
  if 2 ≤ n ∧ s.flag Adr.GLB_TICK_CTL 6 then
    let gs := (((s.running 0).map s.srcOf) ++ ((s.running 1).filter fun c => s.cClass c = 1 && !s.cDec c).map s.cSrc).eraseDups
    iter gs (fun g s => (s.bcMsg g 3 1).2) s
  else s

/-- A BULK picture that is not started (R145, R185). -/
def State.skipNew (s : State) (l : Nat) (carry : Bool) : State :=
  let s := s.bumpFld Adr.GLB_OVR_CNT 16 16 1
  let n := s.listNum l
  if s.listKind l = 1 then
    (if !s.cEn n then s else if s.cDec n then (if carry && (s.cx n).hasAu then s.skipAu n else s) else s.skipPic n)
  else if s.listKind l = 2 && carry then s.skipPlay n
  else s

/-- The engines a list's work is bound to: Facet engines, or codec engines by number (R214). -/
def State.needsFct (s : State) (l : Nat) : Bool := s.listKind l = 0 || s.listKind l = 2
def State.needsCod (s : State) (l : Nat) : List Nat := if s.listKind l = 1 then s.cEngines (s.listNum l) else []

/-- An unfinished RECORD list needs an engine that a BULK list is bound to (R214). Which engines the carry-over of a RECORD Facet
playback list needs R29 does not say: the model takes it to need none (log 3317). -/
def State.bulkBlocks (s : State) (late : List Nat) (l : Nat) : Bool :=
  (s.needsFct l && late.any fun m => s.listKind m = 0) || (s.needsCod l).any fun e => late.any fun m => (s.needsCod m).contains e

/-- A decode picture that is abandoned is discarded and its output buffer freed (R185). -/
def State.dropDecode (s : State) (l : Nat) : State :=
  let n := s.listNum l
  if s.listKind l = 1 ∧ s.cDec n ∧ (s.cx n).decoding.isSome then (s.codAbort n).2.bump (Adr.COD_CNT_SKIP (s.cx n).engine)
  else if s.listKind l = 2 then match (s.ps n).stg.find? fun g => g.out.isSome with
    | some g => (s.dropStg n g.ord).bump (Adr.FCT_P_CNT_DISCARD n)
    | none => s
  else s

/-- LIST_ABANDON (R217): the queue goes back to the picture Clasp, and the abandon step runs, if there is one. -/
def State.abandonList (s : State) (l : Nat) : State :=
  let s := s.bumpFld Adr.GLB_OVR_CNT 16 16 1
  let s := match (s.sl l).clasp with
    | some (q, c) => if (s.queue q).rel ≤ c ∧ c ≤ (s.queue q).tail ∧ (s.qRefuse q).isNone then
        (s.dropHeld q fun p => p = 0 || (5 ≤ p && p ≤ 11)).rewindTo q c else s
    | none => s
  let s := s.dropDecode l
  let a := s.fld (Adr.SEQ_L_ABORT l) 0 16
  s.modSl l fun x => { x with
    st := if a = 0 then 4 else 1, pc := a, abort := a ≠ 0, enter := false, susp := none, past := none, stack := [], owed := 0, clasp := none }

/-- The BULK lists at a tick (R213 step 4, R214). -/
def State.bulkTick (s : State) (late due : List Nat) : State :=
  if late ≠ [] then
    let busy := ((s.seq.lists.filter fun (x : Nat × SList) => x.2.unfinished).map (·.1)).filter fun l => s.listClass l = 2
    let s := iter due (fun l s => s.skipNew l true) s
    iter (busy.filter (s.bulkBlocks late)) (fun l s => s.abandonList l) s
  else iter due (fun l s => if (s.sl l).unfinished then s.skipNew l false else s.firstStep l) s

/-- Streams of lists that an illegal microword or TRIG halted stop (R206 step 3). -/
def State.stopHalted (s : State) : State :=
  let l := s.seq.stops
  let s := s.modSeq fun q => { q with stops := [] }
  iter l (fun l s =>
    let s := s.stopLists l
    if s.listKind l ≠ 3 ∧ s.listClass l ≤ 1 then s.reportStream 4 0x0106 (s.listTarget l) 3 else s) s

/-- The interval's accounts (R199, R223). -/
def State.newInterval (s : State) : State :=
  let d := s.clk.now - s.seq.since
  let s := if s.seq.started && d ≠ 0 then s.setRegN Adr.SEQ_LOAD (min 1000 (s.seq.busy * 1250 / d)) else s
  s.modSeq fun q => { q with
    started := true, since := s.clk.now, busy := 0
    lists := q.lists.map fun (x : Nat × SList) => (x.1, { x.2 with used := 0, late := false }) }

/-- TICK_BOUNDARY: the tick of count c (R213). A stream that stops at this tick is not started at it. Landing's requests of the
tick go out with it (R58, R59). -/
def State.takeTick (s : State) (c : Nat) : State :=
  let s := s.newInterval.stopHalted
  let changes := s.seq.enables
  let due := s.listsOn.filter fun l =>
    isTickOf c (s.listDiv l) (s.listPhase l) && (s.sl l).st ≠ 5 && !changes.contains (l, false)
  let of (k : Nat) : List Nat := due.filter fun l => s.listClass l = k
  let live := of 0
  let record := of 1
  let bulk := of 2
  let s := iter live (fun l s => s.tickList l) s
  let late := ((s.seq.lists.filter fun (x : Nat × SList) => x.2.unfinished).map (·.1)).filter fun l => s.listClass l = 1
  let s := s.lagTick (late ≠ [])
  let s := iter record (fun l s => s.tickList l) s
  let s := s.bulkTick late bulk
  let s := s.modSeq fun q => { q with enables := [] }
  let s := iter changes (fun (x : Nat × Bool) s => s.setEnable x.1 x.2) s
  iter (List.range s.nLnd) (fun g s => s.lndTick g) s

/-- BOUNDARY (R198), which no run is under way to hold back. `soft` counts the single-bit errors that reads of the sequencer's memories
have corrected since the boundary before: microword fetches, the schedule and list tables, and data memory words that other than an
LD reads (R218). -/
def State.boundary (s : State) (soft : Nat) : State :=
  if !s.boot.done || s.seq.cur.isSome || !s.domUp 1 then s
  else
    let s := if soft = 0 then s else (s.bumpBy Adr.SEQ_CNT_CORR soft).raise Adr.SEQ_EVT 2
    let s := s.clearEvents
    let s := iter (s.seq.lists.map (·.1)) (fun l s => s.resolve l) s
    let s := match s.clk.waiting with
      | c :: rest => { s with clk := { s.clk with waiting := rest } }.takeTick c
      | [] => s
    match s.selectList with
    | some l => s.startRun l
    | none => s

/-- The waits that end at a boundary, one list at a time (R210, R212). -/
def State.endWait (s : State) (l : Nat) (p : Susp → Bool) : State :=
  let x := s.sl l
  if s.seq.cur.isNone && (x.susp.any fun w => p w.1 && s.passed w.2) then s.resolve l else s

/-- A suspending fence completes (R212); a FENCE_HOST's read-back has then confirmed the writes to host memory (R38). -/
def State.fenceOver (s : State) (l : Nat) : State :=
  match (s.sl l).susp with
  | some (.fence k, _) =>
    if (s.sl l).st = 3 then ({ s with hostOpen := if k = 3 then none else s.hostOpen } : State).waitOver l false false else s
  | _ => s

/-! ### Executing a microword -/

/-- The microword at a list's PC. -/
def State.wordAt (s : State) (l : Nat) : Option Instr := decodeMicro (s.z (Adr.SEQ_CSTORE (s.sl l).pc))

/-- A microword that the list's state makes illegal (R204, R206). -/
def State.misuse (s : State) (l : Nat) (i : Instr) : Bool :=
  match i with
  | .call c _ => (s.sl l).holds c && 8 ≤ (s.sl l).stack.length
  | .ret => (s.sl l).stack = []
  | .wait e _ _ _ => s.contested l e
  | _ => false

/-- The running list meets an illegal microword: it is not executed (R206). -/
def State.illegalWord (s : State) (l : Nat) : State := (s.endRun l).illegal l false (s.sl l).pc

/-- The list's record of a microword executed: PC stands at the next word, and its cycles count. -/
def SList.stepped (x : SList) (n : Nat) : SList := { x with used := x.used + n, pc := (x.pc + 1) % 65536 }

/-- The sequencer has fetched a microword of list l that takes n cycles. -/
def State.fetched (s : State) (l n : Nat) : State :=
  (s.modSl l fun x => x.stepped n).modSeq fun q => { q with run := q.run + n, busy := q.busy + n }

/-- A microword: the sequencer executes it where the running list's PC names it. PC then stands at the next word. -/
def State.micro (s : State) (i : Instr) (cycles : Nat) (f : Nat → State → State) : State :=
  match s.seq.cur with
  | none => s
  | some l =>
    if s.wordAt l ≠ some i then s
    else if s.misuse l i then s.illegalWord l
    else f l (s.fetched l cycles)

/-- A microword that changes its list alone. -/
def State.onList (s : State) (i : Instr) (cycles : Nat) (f : SList → SList) : State := s.micro i cycles fun l s => s.modSl l f

/-- A microword that ends the run suspended (R210, R212). -/
def State.suspend (s : State) (i : Instr) (k : Susp) (unit count : Nat) : State :=
  s.micro i 1 fun l s =>
    let u : Until := if unit = 3 then .ticks count
      else .at_ (s.clk.now + count * (if unit = 0 then 20 else if unit = 1 then 1000 else 1000000))
    let s := (s.endRun l).modSl l fun x => { x with st := 3, susp := some (k, u), past := none }
    if k = .fence 3 then s.readBack false else s

/-- A unit command (R205): the code and value in GD, FAIL; a refused command changes nothing. -/
def State.unitCmd (s : State) (i : Instr) (gd ga gb : Reg) (f : Nat → Nat → Nat → State → (Nat × Nat) × State) : State :=
  s.micro i 4 fun l s =>
    let x := s.sl l
    let r := f l (x.gr ga).toNat (x.gr gb).toNat s
    let ok : Bool := r.1.1 = Code.done
    let s := if ok then r.2 else s
    let s := if r.1.1 = Code.domainOff then s.reportSw 4 0x0103 Code.domainOff l else s
    s.modSl l fun y => { y.setG gd (BitVec.ofNat 32 (r.1.1 + 256 * (r.1.2 % 2 ^ 24))) with fail := !ok }

/-- A failed RDREG or WRREG is reported (R207). -/
def State.regFail (s : State) (code a : Nat) : State := s.reportSw 4 0x0104 (if code < 0x100 then code else 0) a

end Sys2Proof.Machine
end

