-- ==== Sys2Proof/Machine/Micros.lean ====
section
/-! DEFINITION. What the microwords do (R204, R207, R212, R504), the unit commands, and reloads and scrubbing of the control
store (R218 to R220). -/

namespace Sys2Proof.Machine

/-! ### Data memory and registers -/

/-- LD, with what the ECC check finds (R218, R220). -/
def State.loadWord (s : State) (gd ga : Reg) (imm : Nat) (ecc : Ecc) : State :=
  s.micro (.ld gd ga imm .good) 2 fun l s =>
    let i := dmemIndex ((s.sl l).gr ga) imm
    match ecc with
    | .double =>
      let s := ((s.endRun l).haltNow l).reportHw 4 0x0105 (target 9 1) l (4 * i)
      s.setRegN Adr.SEQ_LAST_ERR (4 * i + 65536 * l + 3 * 2 ^ 24)
    | e =>
      let s := if e = .single then (s.bump Adr.SEQ_CNT_CORR).raise Adr.SEQ_EVT 2 else s
      s.modSl l fun x => x.setG gd (s.z (Adr.SEQ_DMEM i))

def State.storeWord (s : State) (ga gb : Reg) (imm : Nat) : State :=
  s.micro (.st ga gb imm) 2 fun l s => s.setReg (Adr.SEQ_DMEM (dmemIndex ((s.sl l).gr ga) imm)) ((s.sl l).gr gb)

def State.seqRead (s : State) (gd ga : Reg) (imm cyc : Nat) : State :=
  s.micro (.rdreg gd ga imm 0) (min 48 cyc) fun l s =>
    let a := regAddr ((s.sl l).gr ga) imm
    let r := s.rd_ .seq a false
    let bad := r.1 = Code.domainOff || r.1 = Code.badTarget
    let s := if bad then r.2.2.regFail r.1 a else r.2.2
    s.modSl l fun x => { x.setG gd r.2.1 with fail := bad }

def State.seqWrite (s : State) (ga gb : Reg) (imm cyc : Nat) : State :=
  s.micro (.wrreg ga gb imm 0) (min 48 cyc) fun l s =>
    let a := regAddr ((s.sl l).gr ga) imm
    let r := s.wr .seq false a ((s.sl l).gr gb)
    let bad : Bool := r.1 ≠ Code.done
    let s := if bad then r.2.regFail r.1 a else r.2
    s.modSl l fun x => { x with fail := bad }

/-! ### Control flow -/

def State.branch (s : State) (c : Cond) (target : Nat) : State :=
  s.onList (.br c target) 1 fun x => if x.holds c then { x with pc := target } else x

/-- CALL: PC has moved on, so it is the return address. -/
def State.callTo (s : State) (c : Cond) (target : Nat) : State :=
  s.onList (.call c target) 1 fun x => if x.holds c then { x with stack := x.pc :: x.stack, pc := target } else x

def State.returnFrom (s : State) : State :=
  s.onList .ret 1 fun x => match x.stack with
    | a :: t => { x with pc := a, stack := t }
    | [] => x

/-- STEP_END (R197). -/
def State.stepEnd (s : State) : State :=
  s.micro .stepEnd 1 fun l s =>
    let s := s.endRun l
    let x := s.sl l
    if x.abort || s.listLast l ≤ x.step then s.tickDone l else s.enterStep l (x.step + 1)

def State.tickEnd (s : State) : State := s.micro .tickEnd 1 fun l s => (s.endRun l).tickDone l

def State.haltWord (s : State) : State := s.micro .halt 1 fun l s => (s.endRun l).haltNow l

/-! ### FENCE_ENG, BUDGET, TICKNO -/

/-- FENCE_ENG (R212): the run blocks while an engine named has work; the word is then executed. -/
def State.fenceEng (s : State) (gd : Reg) (imm cyc : Nat) : State :=
  let mask := BitVec.ofNat 32 (imm % 128)
  let named := ((List.range 7).filter fun e => bit mask e).length
  if !s.fenceIdle mask then s
  else s.micro (.fenceEng gd imm 0) (min (40 * named) cyc) fun l s =>
    let a := s.fenceAns mask
    s.modSl l fun x => { x.setG gd (BitVec.ofNat 32 (a.1 + 256 * a.2)) with fail := a.1 ≠ Code.done }

/-- BUDGET: what is left of the interval budget before this microword (R199, R204). -/
def State.budgetLeft (s : State) (gd : Reg) : State :=
  s.micro (.budget gd) 1 fun l s =>
    let b : Int := s.listBudget l
    let v := if s.listBudget l = 0 then 0x7FFFFFFF else BitVec.ofInt 32 (b - ((s.sl l).used : Int) + 1)
    s.modSl l fun x => x.setG gd v

def State.tickNo (s : State) (gd : Reg) (imm : Nat) : State :=
  s.micro (.tickno gd imm) 1 fun l s =>
    s.modSl l fun x => x.setG gd (BitVec.ofNat 32 (if imm = 1 then s.clk.count / 2 ^ 32 else s.clk.count % 2 ^ 32))

/-! ### Unit commands -/

/-- A queue operation while the fabric is off, in retention or draining (R205). -/
def State.inFabric (s : State) (f : State → (Nat × Nat) × State) : (Nat × Nat) × State :=
  if s.domRuns 2 then f s else ((Code.domainOff, 0), s)

/-- The full position that GB names in a queue (R504). -/
def Queue.posOf (x : Queue) (gb imm : Nat) : Option Nat :=
  if imm % 2 = 0 then some (x.extend gb)
  else if 2 ^ 24 ≤ gb then none
  else
    let d := (x.tail + 2 ^ 24 - gb) % 2 ^ 24
    if d ≤ x.tail then some (x.tail - d) else none

/-- Q_MARK (R231, R504). -/
def State.markQueue (s : State) (l q imm : Nat) : (Nat × Nat) × State :=
  match s.qRefuse q with
  | some c => ((c, 0), s)
  | none =>
    let t := (s.queue q).tail
    ((Code.done, t % 2 ^ 24), if imm % 2 = 1 then s.modSl l fun x => { x with clasp := some (q, t) } else s)

/-- Q_REWIND (R232, R504). -/
def State.seqRewind (s : State) (q gb imm : Nat) : (Nat × Nat) × State :=
  match s.qRefuse q, (s.queue q).posOf gb imm with
  | some c, _ => ((c, 0), s)
  | none, none => ((Code.outOfRange, 0), s)
  | none, some c =>
    if (s.queue q).rel ≤ c ∧ c ≤ (s.queue q).tail then ((Code.done, 0), (s.dropHeld q fun p => p = 0).rewindTo q c) else ((Code.outOfRange, 0), s)

/-- Q_RELEASE (R234, R504). -/
def State.seqRelease (s : State) (q gb imm : Nat) : (Nat × Nat) × State :=
  match s.qRefuse q, (s.queue q).posOf gb imm with
  | some c, _ => ((c, 0), s)
  | none, none => ((Code.outOfRange, 0), s)
  | none, some c =>
    if (s.queue q).rel ≤ c ∧ c ≤ (s.queue q).read then ((Code.done, 0), s.releaseTo q c) else ((Code.outOfRange, 0), s)

/-- Q_NOTE (R204, R243). -/
def State.noteQueue (s : State) (q gb : Nat) : (Nat × Nat) × State :=
  if q < 8 then ((Code.badTarget, 0), s)
  else
    let r := s.sendPkt q 0 0 (wordBytes (s.dmemWords (gb % 65536) 4))
    ((r.1, 0), r.2)

def withZero (r : Nat × State) : (Nat × Nat) × State := ((r.1, 0), r.2)

/-- FCT_ABORT of an engine that is absent or off. -/
def State.abortEngine (s : State) (e : Nat) : (Nat × Nat) × State :=
  if s.nFct ≤ e then ((Code.badTarget, 0), s)
  else if !s.domRuns (3 + e) then ((Code.domainOff, 0), s)
  else s.fctAbort e

/-- BC_SEND (R62). -/
def State.sendBack (s : State) (g gb imm : Nat) : (Nat × Nat) × State :=
  if s.nLnd ≤ g then ((Code.badTarget, 0), s)
  else if !s.domRuns (14 + g) then ((Code.domainOff, 0), s)
  else if imm % 256 = 0 ∨ 4 < imm % 256 then ((Code.outOfRange, 0), s)
  else withZero (s.bcMsg g (imm % 256) (gb % 65536))

/-- PWR_REQ (R424, R428). -/
def State.seqPower (s : State) (d gb : Nat) : (Nat × Nat) × State :=
  let c := s.powerCode d (pstate (gb % 4))
  if c ≠ Code.done then ((c, 0), s)
  else if gb % 4 = 3 then ((Code.outOfRange, 0), s)
  else ((Code.done, 0), s.powerReq d (pstate (gb % 4)) .seq)

/-! ### Reload and scrubbing (R218 to R220) -/

/-- The golden copy's address of a word: of the control store, the schedule table or the list table. -/
def State.goldAddr (s : State) (mem index : Nat) : Nat :=
  s.pair Adr.SEQ_GOLD_BASE_LO Adr.SEQ_GOLD_BASE_HI +
    (if mem = 0 then 4 * (index % 65536) else if mem = 1 then 0x40000 + 8 * (index % 4096) else 0x48000 + 4 * (index % 1024))

def State.goldWord (s : State) (a : Nat) : Word := BitVec.ofNat 32 (leNat (memRead 0 s.dram a 4))

/-- Rewrites a word from the golden copy. -/
def State.reloadWord (s : State) (mem index : Nat) : State :=
  let a := s.goldAddr mem index
  if mem = 0 then s.setReg (Adr.SEQ_CSTORE (index % 65536)) (s.goldWord a)
  else if mem = 1 then
    (s.setReg (Adr.SEQ_SCHED (2 * (index % 4096))) (s.goldWord a)).setReg (Adr.SEQ_SCHED (2 * (index % 4096) + 1)) (s.goldWord (a + 4))
  else s.setReg (0x88000 + 4 * (index % 1024)) (s.goldWord a)

/-- CS_RELOAD: by a run of the list that runs, or by the scrubber; `goldBad` is an uncorrectable error of the golden copy. -/
def State.csReload (s : State) (mem index : Nat) (scrub goldBad : Bool) : State :=
  let l := s.seq.cur.getD 0
  if !scrub && s.seq.cur.isNone then s
  else
    let err (k : Nat) (s : State) : State := s.setRegN Adr.SEQ_LAST_ERR (index % 65536 + (if scrub then 0 else 65536 * l) + k * 2 ^ 24)
    if goldBad then
      let s := if scrub then s else (s.endRun l).haltNow l
      err 2 ((s.raise Adr.SEQ_EVT 4).reportHw 4 4 (target 9 1) mem index)
    else
      err 1 ((((s.reloadWord mem index).bump Adr.SEQ_CNT_RELOAD).raise Adr.SEQ_EVT 3).reportHw 4 3 (target 9 1) mem index)

/-- SCRUB: one control store word is read. -/
def State.scrub (s : State) (addr : Nat) (e : Ecc) : State :=
  if !s.boot.done || !s.flag Adr.SEQ_SCRUB 8 then s
  else match e with
    | .good => s
    | .single => (s.bump Adr.SEQ_CNT_CORR).raise Adr.SEQ_EVT 2
    | .double => s.csReload 0 addr true false

end Sys2Proof.Machine
end

