-- ==== Sys2Proof/Machine/Boot.lean ====
section
/-! DEFINITION. Boot (R398 to R419): the flash directory, the records of an image, repair entries, the start sequence, completion,
the second image, and recovery. Readings are log 34. -/

namespace Sys2Proof.Machine

def State.modBoot (s : State) (f : Boot → Boot) : State := { s with boot := f s.boot }

/-- The boot ROM works: boot has not completed, nothing holds the device in reset, and it is not in RECOVERY. -/
def State.booting (s : State) : Bool := !s.boot.done && !s.boot.held && s.boot.stage ≠ 11

/-! ### Failure and recovery (R418, R419) -/

/-- The slots in the order in which this boot tries them: 0 A, 1 B. -/
def State.slotOrder (s : State) : List Nat := if s.fld Adr.BOOT_CTL 0 2 = 1 then [1, 0] else [0, 1]

/-- The slot of the attempt under way. -/
def State.slot? (s : State) : Option Nat := s.slotOrder.find? fun k => !s.boot.tried.contains k

/-- BOOT_ERR of a slot. -/
def errReg (k : Nat) : Nat := if k = 0 then Adr.BOOT_ERR_A else Adr.BOOT_ERR_B

/-- The device enters RECOVERY: AON, SEQ, FAB and HST are ON and every other domain is OFF. -/
def State.recover (s : State) : State :=
  let s := (s.bumpFld Adr.BOOT_CNT 16 16 1).setFld Adr.BOOT_CTL 0 2 0
  let s := iter (List.range' 3 18) (fun d s =>
    if s.hasDom d then s.setDomain d { Domain.up with st := .off, target := .off } else s) s
  s.modBoot fun b => { b with stage := 11, image := 2 }

/-- An attempt fails with a code at a stage, on a record, step or patch: the other slot is next, or RECOVERY. -/
def State.failAttempt (s : State) (code stage index : Nat) : State :=
  match s.slot? with
  | none => s
  | some k =>
    let s := s.setRegN (errReg k) (code + 256 * stage + 4096 + 65536 * (index % 65536))
    let s := (s.modBoot fun b => { b with tried := b.tried ++ [k] }).attemptReset
    if s.slot?.isNone then s.recover else s

/-! ### Repair entries (R409, R410) -/

/-- An entry names a unit as R380 does: one that holds memories, by its kind, with its domain's index for the memories of AON, SEQ
and FAB. -/
def State.repairUnit (s : State) (k i : Nat) : Bool :=
  if k = 8 then i < 4 * s.nDmc else if k = 9 then i ≤ 2 else 4 ≤ k && k ≤ 7 && s.hasTarget k i

/-- The entries in effect retire the unit. -/
def State.startsRetired (s : State) (k i : Nat) : Bool :=
  s.boot.repairs.any fun e => e.kind = 2 && e.tkind = k && e.index = i

/-- A channel can start retired: there is a reserve, no other channel of its package is retired, and every enabled region lies
below C × RTOP (R409, R292). -/
def State.canStartRetired (s : State) (ch : Nat) : Bool :=
  ch < s.nCh && s.reloc ≠ 0 && s.regions.all (fun r => r.2.2.1 ≤ s.nCh * s.rtop) &&
    (List.range 4).all fun c => 4 * (ch / 4) + c = ch || !s.startsRetired 8 (4 * (ch / 4) + c)

/-- A repair entry meets the table of R409. -/
def State.entryOk (s : State) (e : RepairEntry) : Bool :=
  match e.kind with
  | 1 => s.repairUnit e.tkind e.index
  | 2 => e.data = 0 && (e.tkind = 4 || e.tkind = 5 || (e.tkind = 8 && s.canStartRetired e.index)) && s.repairUnit e.tkind e.index
  | 3 => e.tkind = 8 && s.repairUnit 8 e.index
  | 4 => s.repairUnit e.tkind e.index
  | _ => false

/-- An entry joins those in effect; a CLEAR cancels the earlier ones of its unit. -/
def State.addEntry (s : State) (e : RepairEntry) : State :=
  s.modBoot fun b => { b with repairs :=
    if e.kind = 4 then b.repairs.filter fun x => !(x.tkind = e.tkind && x.index = e.index) else b.repairs ++ [e] }

def entryOf (l : List Byte) : RepairEntry :=
  ⟨leNat (l.take 1), leNat ((l.drop 1).take 1), leNat ((l.drop 2).take 2), BitVec.ofNat 32 (leNat ((l.drop 4).take 4))⟩

/-- One 16-byte entry of the repair log: applied, or skipped and counted. -/
def State.logRead (s : State) (l : List Byte) : State :=
  let e := entryOf l
  let s := if crc32c (l.take 12) = leNat ((l.drop 12).take 4) then
    s.modFlt fun f => { f with logSeq := (leNat ((l.drop 8).take 4) + 1) % 2 ^ 32 } else s
  if crc32c (l.take 12) = leNat ((l.drop 12).take 4) && s.entryOk e then (s.addEntry e).bumpFld Adr.BOOT_REPAIR 8 8 1
  else s.bumpFld Adr.BOOT_REPAIR 16 8 1

def State.readLog (s : State) : State :=
  iter (List.range (s.logUsed s.boot.logOff (s.boot.logLen / 16))) (fun i s => s.logRead (s.flRead (s.boot.logOff + 16 * i) 16)) s

/-! ### Start steps (R413 to R416) -/

/-- The VCO of a PLL in MHz (R414). -/
def State.vcoOf (s : State) (n : Nat) : Nat :=
  match n with
  | 0 => 4000
  | 1 => 2400
  | 2 => 2000
  | _ => ([4267, 6400, 7500, 8533] : List Nat).getD (s.fld Adr.DMC_G_CFG 4 2) 0

/-- Clock domains that CLKSEL may name. -/
def clkselOk (c : Nat) : Bool := (2 ≤ c && c ≤ 18) || c = 26 || c = 28

/-- What the start steps so far have made: PLLs locked, sources of clock domains, states of power domains. -/
abbrev Started := List Nat × List (Nat × Nat) × List (Nat × Nat)

/-- Before TRAIN, each package's PLL, clock domains and power domain are up. -/
def pkgReady (x : Started) (p : Nat) : Bool :=
  x.1.contains (3 + p) && tget 0 x.2.1 (11 + p) = 2 && tget 0 x.2.1 (15 + p) = 2 && tget 0 x.2.2 (10 + p) = 0

/-- One step meets R413 to R415 after the steps before it. -/
def State.stepOk (s : State) (x : Started) (t : StartStep) : Bool :=
  match t with
  | .volt mv => 650 ≤ mv && mv ≤ 900
  | .pll n vco => n ≤ 6 && vco = s.vcoOf n
  | .clksel c src => clkselOk c && src ≤ 2 && (src ≠ 2 || x.1.contains (pllOf c))
  | .power d st => s.hasDom d && st ≤ 2 && d ≠ 0 && (st = 0 || 3 ≤ d)
  | .train k => k % 16 = s.pkgMask && (List.range 4).all fun p => k / 2 ^ p % 2 = 0 || pkgReady x p
  | .wait us => 1 ≤ us && us ≤ 100000

def afterStep (x : Started) (t : StartStep) : Started :=
  match t with
  | .pll n _ => (x.1 ++ [n], x.2.1, x.2.2)
  | .clksel c src => (x.1, tput x.2.1 c src, x.2.2)
  | .power d st => (x.1, x.2.1, tput x.2.2 d st)
  | _ => x

/-- Engines of the active slots, and codec engines with contexts, that do not start retired. -/
def State.startEngines (s : State) : List Nat :=
  let a := if s.fuse.m then [0, 1] else [0, 1, 2, 3]
  let slots := if s.flag Adr.FCT_GLB_CTL 0 then a ++ [s.nFct - 1] else a
  (slots.filter fun e => !s.startsRetired 4 e).map (3 + ·) ++
  ((List.range s.nCod).filter fun e => s.ctxCount e ≠ 0 && !s.startsRetired 5 e).map (8 + ·)

/-- What R415 asks of the end of the sequence. -/
def State.endsOk (s : State) (x : Started) : Bool :=
  ((List.range' 2 17).all fun c =>
    !(c ≤ 3 || (s.hasDom (clkDom c) && tget 0 x.2.2 (clkDom c) = 0)) || tget 0 x.2.1 c = 2) &&
  s.startEngines.all (fun d => tget 0 x.2.2 d = 0) &&
  (List.range 4).all fun p => s.pkgMask / 2 ^ p % 2 = 0 || tget 0 x.2.2 (10 + p) = 0

def State.stepsOk (s : State) : List StartStep → Started → Bool
  | [], x => s.endsOk x
  | t :: r, x => s.stepOk x t && s.stepsOk r (afterStep x t)

/-- A POWER step makes the transition at once and waits for its end. -/
def State.bootPower (s : State) (d st : Nat) : State :=
  if (s.domain d).st = pstate st then s
  else
    let s := s.powerBegin d (pstate st) .dev
    let s := s.setDomain d { s.domain d with phase := if st = 0 then .exiting else .entering }
    s.transDone d

/-- A channel that fails training starts retired if it could, and fails the start otherwise (R416). -/
def State.trainFail (s : State) (ch : Nat) : Bool × State :=
  let s := (s.dmcEvt (ch / 4) 9).reportHw (36 + ch / 4) 9 (target 8 ch)
  if s.canStartRetired ch then (true, (s.addEntry ⟨2, 8, ch, 0⟩).logEntry 2 8 ch 0) else (false, s)

/-- The channels train; the result says whether the start goes on. -/
def State.trainAll (s : State) (ok : List Bool) : List Nat → Bool × State
  | [] => (true, s)
  | ch :: t =>
    if s.startsRetired 8 ch then s.trainAll ok t
    else if ok.getD ch true then (s.modDc ch fun x => { x with up := true }).trainAll ok t
    else
      let r := s.trainFail ch
      if r.1 then r.2.trainAll ok t else r

/-- A DRAM_ROW candidate is repaired, or held (R415). -/
def State.bootRow (s : State) (ch key : Nat) (ok : Bool) : State :=
  if !(s.dc ch).up then s
  else if ok then s.bumpFld (Adr.DMC_CH_PPR (ch / 4) (ch % 4)) 0 8 1
  else (s.addCand ch key).dmcEvt (ch / 4) 5

def State.bootRows (s : State) (ok : List Bool) : State :=
  iter ((s.boot.repairs.filter fun e => e.kind = 3).zipIdx) (fun e s => s.bootRow e.1.index e.1.data.toNat (ok.getD e.2 true)) s

/-- A TRAIN step: its code, and the state after it. -/
def State.bootTrain (s : State) (e : TrainEnv) : Nat × State :=
  let r := s.trainAll e.trained (List.range s.nCh)
  if !r.1 then (Code.aborted, r.2)
  else if !e.diesOk then (Code.configInvalid, r.2)
  else (Code.done, r.2.bootRows e.repaired)

/-- A start step: its code, what is left of the board's answers, and the state after it. -/
def State.startStep (s : State) (t : StartStep) (e : StartEnv) : Nat × StartEnv × State :=
  match t with
  | .volt mv =>
    (if e.volts.headD true then Code.done else Code.timeout, { e with volts := e.volts.drop 1 },
      (s.setVdd mv).modThm fun x => { x with nominalMv := mv })
  | .pll n vco =>
    (if s.pll.xtal && e.plls.headD true then
      (Code.done, { e with plls := e.plls.drop 1 },
        s.modPll fun p => { p with lock := (p.lock.filter (· ≠ n)) ++ [n], vco := tput p.vco n vco })
     else (Code.timeout, { e with plls := e.plls.drop 1 }, s))
  | .clksel c src => (Code.done, e, s.setSrc c src)
  | .power d st => (Code.done, e, s.bootPower d st)
  | .train _ =>
    let r := s.bootTrain e.train
    (r.1, e, r.2)
  | .wait us => (Code.done, e, s.modBoot fun b => { b with us := b.us + us })

/-- The steps in order from step i: the code and the index of the one that fails, and the state. -/
def State.runSteps (s : State) : List StartStep → Nat → StartEnv → Option (Nat × Nat) × State
  | [], _, _ => (none, s)
  | t :: r, i, e =>
    let x := s.startStep t e
    if x.1 = Code.done then x.2.2.runSteps r (i + 1) x.2.1 else (some (x.1, i), x.2.2)

/-! ### Records (R405 to R409) -/

/-- The boot ROM's own queue settings, before any record (R243). -/
def State.presetQueues (s : State) : State :=
  iter (List.range 16) (fun q s =>
    if 5 ≤ q ∧ q ≤ 7 then (s.setRegN (Adr.QF_Q_CFG q) 0x18).setRegN (Adr.QF_Q_STORE q) 0
    else (s.setRegN (Adr.QF_Q_CFG q) 0x1D).setRegN (Adr.QF_Q_STORE q) 0x20202) s

/-- Stage RECORDS begins, for an image with a base microcode version. -/
def State.beginRecords (s : State) (ucode : Nat) : State :=
  if 5 ≤ s.boot.stage then s
  else (s.presetQueues.setRegN Adr.SEQ_UCODE_VER ucode).modBoot fun b => { b with stage := 5, ucode := ucode }

/-- A REGS record: each pair as a host write on PCIe, its _LO half before its _HI half; none where one is refused or discarded. -/
def State.recRegs (s : State) : List (Nat × Word) → Option State
  | [] => some s
  | (a, v) :: t =>
    let r := s.wr .pcie true a v
    if r.1 ≠ Code.done ∨ (pairHi a ∧ (tget? s.holdW (holdKey .pcie (a - 4))).isNone) then none else r.2.recRegs t

/-- Words into consecutive registers. -/
def State.putWords (s : State) (adr : Nat → Nat) (start : Nat) (l : List Word) : State :=
  iter l.zipIdx (fun w s => s.setReg (adr (start + w.2)) w.1) s

def State.recUcode (s : State) (start : Nat) (l : List Word) : Option State :=
  if s.boot.patched || 65536 < start + l.length then none else some (s.putWords Adr.SEQ_CSTORE start l)

def State.recSched (s : State) (first : Nat) (l : List (Word × Word)) : Option State :=
  if 4096 < first + l.length then none else some (s.putWords Adr.SEQ_SCHED (2 * first) (l.flatMap fun e => [e.1, e.2]))

def State.recDmem (s : State) (addr : Nat) (l : List Word) : Option State :=
  if addr % 4 ≠ 0 || 0xFF00 < addr + 4 * l.length then none else some (s.putWords Adr.SEQ_DMEM (addr / 4) l)

/-- A patch is applied: its ranges in order, and SEQ_PATCH_ID. -/
def State.applyPatch (s : State) (id : Nat) (rs : List (Nat × List Word)) : State :=
  let s := iter rs (fun r s => s.putWords Adr.SEQ_CSTORE r.1 r.2) s
  (s.setFld Adr.SEQ_PATCH_ID 0 16 id).bumpFld Adr.SEQ_PATCH_ID 16 8 1

/-- The ranges of a patch are within R408. -/
def rangesOk (rs : List (Nat × List Word)) : Bool :=
  rs ≠ [] && rs.length ≤ 256 && rs.all fun r => r.2 ≠ [] && r.1 + r.2.length ≤ 65536

def State.recPatch (s : State) (id : Nat) (rs : List (Nat × List Word)) : Option State :=
  if id = 0 || 65535 < id || !rangesOk rs then none
  else some ((s.applyPatch id rs).modBoot fun b => { b with patched := true })

def State.recRepair (s : State) : List RepairEntry → Option State
  | [] => some s
  | e :: t => if s.entryOk e then ((s.addEntry e).bumpFld Adr.BOOT_REPAIR 0 8 1).recRepair t else none

def State.recStart (s : State) (l : List StartStep) (e : StartEnv) : Option State :=
  if l = [] || 64 < l.length || !s.stepsOk l ([], [], []) then none else some (s.modBoot fun b => { b with start := some (l, e) })

/-- A record is applied; START is the last one, but for END, and comes once. -/
def State.applyRec (s : State) (i : Instr) : Option State :=
  if s.boot.start.isSome then none
  else match i with
    | .regs l => s.recRegs l
    | .ucode a l => s.recUcode a l
    | .sched a l => s.recSched a l
    | .dmem a l => s.recDmem a l
    | .patch id rs => s.recPatch id.toNat rs
    | .repairRecord l => s.recRepair l
    | .start l e => s.recStart l e
    | .info _ => some s
    | _ => none

/-- The record with the next index is applied, or ends the attempt. -/
def State.bootRec (s : State) (i : Instr) : State :=
  match s.applyRec i with
  | some t => t.modBoot fun b => { b with rec_ := b.rec_ + 1 }
  | none => s.failAttempt Code.configInvalid 5 s.boot.rec_

/-- A record command: the record is one of the attempt under way. -/
def State.record (s : State) (i : Instr) : State := if s.booting then (s.beginRecords 0).bootRec i else s

/-! ### Stored patches (R411) -/

/-- The stored patches from an offset of the patch area on, applied in order: the code and index of the one that fails. -/
def State.storedPatches (s : State) : (fuel off i : Nat) → Option (Nat × Nat) × State
  | 0, _, _ => (none, s)
  | fuel + 1, off, i =>
    let room := s.boot.paOff + s.boot.paLen - off
    let n := leNat (s.flRead off 4)
    if room < 4 || n = 0xFFFFFFFF then (none, s.modBoot fun b => { b with paEnd := off })
    else if room < 4 + n then (some (Code.tooLong, i), s)
    else match s.openPatch s.boot.ucode 7340032 (s.flRead (off + 4) n) with
      | .error c => (some (c, i), s)
      | .ok p => ((s.applyPatch p.1 p.2).bumpFld Adr.BOOT_PATCH 0 8 1).storedPatches fuel (off + 4 + (n + 15) / 16 * 16) (i + 1)

/-! ### Completion (R417) -/

/-- The golden copy in the layout of R220: the control store, the schedule table and the list table. -/
def State.goldWrite (s : State) : State :=
  let base := s.goldAddr 0 0
  let clear := s.dram.filter fun (c : Host.Cell) => c.1 < base || base + 0x49000 ≤ c.1
  let put (r : Nat × Word) (m : List Host.Cell) : List Host.Cell :=
    if 0xC0000 ≤ r.1 ∧ r.1 < 0x100000 then memWrite 0 m (s.goldAddr 0 ((r.1 - 0xC0000) / 4)) (leBytes 4 r.2.toNat)
    else if 0x90000 ≤ r.1 ∧ r.1 < 0x98000 then memWrite 0 m (base + 0x40000 + (r.1 - 0x90000)) (leBytes 4 r.2.toNat)
    else if 0x88000 ≤ r.1 ∧ r.1 < 0x89000 then memWrite 0 m (base + 0x48000 + (r.1 - 0x88000)) (leBytes 4 r.2.toNat)
    else m
  let divs := (List.range 128).map fun l => (Adr.SEQ_L_CTL l, s.reg (Adr.SEQ_L_CTL l))
  { s with dram := (s.regs ++ divs).foldl (fun m r => put r m) clear }

/-- Every fitted channel is trained or starts retired, so that the golden copy can be written. -/
def State.dramReady (s : State) : Bool := (List.range s.nCh).all fun ch => (s.dc ch).up || s.startsRetired 8 ch

/-- The slice mode of a context holds from boot. -/
def State.sliceForce (s : State) : State :=
  iter ((List.range s.nCtx).filter fun c => s.fld (Adr.COD_C_SLICE c) 24 2 ≠ 0)
    (fun c s => { s with force := tput s.force (Adr.COD_C_SLICE c) (BitVec.ofNat 32 (2 ^ 24 * s.fld (Adr.COD_C_SLICE c) 24 2)) }) s

/-- Contexts are assigned to their engines, and the reserved engine is set (R143, R158). -/
def State.assignCtxs (s : State) : State :=
  let s := iter ((List.range s.nCtx).filter fun c => s.cEn c && !s.cSplit c)
    (fun c s => s.modCx c fun x => { x with engine := s.fld (Adr.COD_C_CTL c) 8 1 }) s
  { s with cod := { s.cod with rsv := s.fld Adr.COD_GLB_CTL 0 1 } }

/-- With SPARE_WORK = 1 there is no spare: it has a slot. Else, with SPARE_HOT = 0, it rests in RET (R105, R128). -/
def State.assignSlots (s : State) : State :=
  match s.spare with
  | none => s
  | some e =>
    if s.flag Adr.FCT_GLB_CTL 0 then
      let s := s.modEng e fun x => { x with st := 1 }
      { s with fct := { s.fct with slots := s.fct.slots ++ [e] } }
    else s.restSpare e

/-- The map of a memory takes the entry's row, and the units of RETIRED entries start retired (R409). -/
def State.applyEntry (s : State) (e : RepairEntry) : State :=
  match e.kind with
  | 1 => match fltUnit (target e.tkind e.index) with
    | some u => s.modFu u fun x => { x with rows := x.rows + 1 }
    | none => s
  | 2 =>
    if e.tkind = 4 then (if s.isRetired e.index then s else (s.retireFct e.index).2)
    else if e.tkind = 5 then (if (s.ce e.index).st = 5 then s else s.retireCod e.index)
    else (s.modDc e.index fun x => { x with up := false, out := true }).setDk (e.index / 4) ⟨2, e.index % 4, s.rtop / 256⟩
  | _ => s

/-- The gate lists that the image wrote become the oper lists (R317). -/
def State.adoptLists (s : State) : State :=
  iter ((List.range (2 * s.nXcv)).filter fun p => s.clCycle p ≠ 0) (fun p s => (s.adoptList p).setFld (Adr.SCH_P_CL_CTL p) 10 1 0) s

/-- Boot completes in one fabric cycle (R417). -/
def State.complete_ (s : State) (k ver us : Nat) : State :=
  let s := s.modBoot fun b => { b with stage := 10, image := k, done := true }
  let s := (s.setRegN (errReg k) (10 * 256 + 4096)).setRegN Adr.BOOT_TIME (sat 0xFFFFFFFF us)
  let s := ((s.bumpFld Adr.BOOT_CNT 0 16 1).setRegN Adr.BOOT_IMG_VER ver).setFld Adr.BOOT_CTL 0 2 0
  let s := s.setFld Adr.BOOT_PATCH 16 16 s.patchFree
  let s := if s.fld Adr.THM_OD_CTL 16 10 ≠ 0 then s.modPll fun p => { p with lock := p.lock ++ [7, 8] } else s
  let s := s.assignCtxs.sliceForce.adoptLists.assignSlots
  iter s.boot.repairs (fun e s => s.applyEntry e) s

/-! ### The end of an attempt -/

/-- Stage START and on. -/
def State.bootStart (s : State) (l : List StartStep) (e : StartEnv) (golden : Bool) (ver : Nat) (us : Option Nat) : State :=
  let r := s.runSteps l 0 e
  let s := r.2
  match r.1 with
  | some (c, i) => s.failAttempt c 8 i
  | none =>
    if !golden || !s.dramReady then s.failAttempt Code.aborted 9 0
    else match s.slot? with
      | none => s
      | some k => s.goldWrite.complete_ k ver (us.getD s.boot.us)

/-- Stages PATCHES and CHECKS. -/
def State.bootChecks (s : State) (l : List StartStep) (e : StartEnv) (golden : Bool) (ver : Nat) (us : Option Nat) : State :=
  let r := s.storedPatches (s.boot.paLen / 16 + 1) s.boot.paOff 0
  let s := r.2
  match r.1 with
  | some (c, i) => s.failAttempt c 6 i
  | none => match s.firstBad with
    | some a => (s.setRegN Adr.BOOT_ERR_ADDR a).failAttempt Code.configInvalid 7 0
    | none => s.bootStart l e golden ver us

/-- END: the records end with START, the repair log is read, and the boot goes on. -/
def State.bootEnd (s : State) (golden : Bool) (ver : Nat) (us : Option Nat) : State :=
  match s.boot.start with
  | none => s.failAttempt Code.configInvalid 5 s.boot.rec_
  | some (l, e) => s.readLog.bootChecks l e golden ver us

/-- The END record as a command: the golden copy reads back, and the boot took what its WAIT steps took. -/
def State.recordEnd (s : State) : State := if s.booting then (s.beginRecords 0).bootEnd true 0 none else s

/-- A start step as a command: it runs at once and, where R413 to R415 refuse it or it fails, ends the attempt. -/
def State.stepCmd (s : State) (t : StartStep) (e : StartEnv) : State :=
  if !s.booting then s
  else
    let s := s.beginRecords 0
    if !s.stepOk (s.pll.lock, s.pll.src, s.dom.map fun (d : Nat × Domain) => (d.1, pstateNo d.2.st)) t then
      s.failAttempt Code.configInvalid 5 s.boot.rec_
    else
      let r := s.startStep t e
      if r.1 = Code.done then r.2.2 else r.2.2.failAttempt r.1 8 0

/-! ### The flash directory (R401, R402) -/

/-- The areas of a directory copy, as (offset, length): slots A and B, patch areas A and B, and the repair log. -/
def dirAreas (l : List Byte) : List (Nat × Nat) :=
  (List.range 5).map fun i => (leNat ((l.drop (8 + 8 * i)).take 4), leNat ((l.drop (12 + 8 * i)).take 4))

/-- A directory copy meets every rule of R401, in a flash of `size` bytes. -/
def dirOk (size : Nat) (l : List Byte) : Bool :=
  let n (a k : Nat) : Nat := leNat ((l.drop a).take k)
  let areas := dirAreas l
  let used := areas.filter fun x => x.2 ≠ 0
  l.take 4 = [0x50, 0x56, 0x44, 0x31] && n 4 1 = 1 && n 5 1 ≤ 1 && 4 ≤ n 6 1 && n 6 1 ≤ 31 && n 7 1 = 0 && n 51 1 = 0 && n 56 4 = 0 &&
    crc32c (l.take 60) = n 60 4 && areas.all (fun x => x.1 % 65536 = 0 && x.2 % 65536 = 0) &&
    used.all (fun x => 65536 ≤ x.1 && x.1 + x.2 ≤ size) && disjoint (used.map fun x => (x.1, x.1 + x.2)) && n 12 4 ≠ 0 && n 20 4 ≠ 0

/-- The directory copy in use: 0 or 1, with its bytes. -/
def State.directory (s : State) : Option (Nat × List Byte) :=
  [(0, s.flRead 0 64), (1, s.flRead 4096 64)].find? fun x => dirOk s.flashSize x.2

/-! ### BOOT -/

/-- A record of a plaintext body as its command, where its payload has the record's form. -/
def parseRec (ucode : Nat) (e : StartEnv) (r : Nat × List Byte) : Option Instr :=
  let p := r.2
  let n (a k : Nat) : Nat := leNat ((p.drop a).take k)
  let w (a : Nat) : Word := BitVec.ofNat 32 (n a 4)
  let k := p.length
  match r.1 with
  | 1 => if k % 8 ≠ 0 then none else some (.regs ((List.range (k / 8)).map fun i => (n (8 * i) 4, w (8 * i + 4))))
  | 2 => if k % 4 ≠ 0 || k = 0 then none else some (.ucode (n 0 4) ((List.range (k / 4 - 1)).map fun i => w (4 * i + 4)))
  | 3 => if k % 8 ≠ 4 then none else
      some (.sched (n 0 4) ((List.range (k / 8)).map fun i => (w (8 * i + 4), w (8 * i + 8))))
  | 4 => if k % 4 ≠ 0 || k = 0 then none else some (.dmem (n 0 4) ((List.range (k / 4 - 1)).map fun i => w (4 * i + 4)))
  | 5 => (parsePatch ucode p).map fun x => .patch (BitVec.ofNat 32 x.1) x.2
  | 6 => if k % 8 ≠ 0 then none else some (.repairRecord ((List.range (k / 8)).map fun i => entryOf ((p.drop (8 * i)).take 8)))
  | 7 =>
    let step (i : Nat) : Option StartStep :=
      let a0 := n (8 * i + 1) 1
      let a1 := n (8 * i + 2) 2
      let a2 := n (8 * i + 4) 4
      match n (8 * i) 1 with
      | 1 => some (.volt a2)
      | 2 => some (.pll a0 a2)
      | 3 => some (.clksel a0 a1)
      | 4 => some (.power a0 a1)
      | 5 => some (.train (a0 % 16))
      | 6 => some (.wait a2)
      | _ => none
    if k % 8 ≠ 0 then none else
      let l := (List.range (k / 8)).map step
      if l.all (·.isSome) then some (.start (l.filterMap id) e) else none
  | 8 => some (.info p)
  | _ => none

/-- The records before END are applied in order, as long as the attempt goes on. -/
def State.bootRecs (s : State) : List Instr → State
  | [] => s
  | i :: t => match s.applyRec i with
    | some u => (u.modBoot fun b => { b with rec_ := b.rec_ + 1 }).bootRecs t
    | none => s.failAttempt Code.configInvalid 5 s.boot.rec_

/-- The plaintext of an image: its records are validated, and applied. -/
def State.bootBody (s : State) (ucode : Nat) (e : StartEnv) (body : List Byte) : State :=
  let s := s.beginRecords ucode
  match parseRecords (body.length + 1) 0 body with
  | .error i => s.failAttempt Code.configInvalid 5 i
  | .ok rs =>
    let cmds := (rs.take (rs.length - 1)).map (parseRec ucode e)
    match cmds.findIdx? (·.isNone) with
    | some i => s.failAttempt Code.configInvalid 5 i
    | none => s.bootRecs (cmds.filterMap id)

/-- One attempt on slot k at its offset and length, with its patch area: stages HEADER to DONE. -/
def State.attempt (s : State) (k : Nat) (area pa : Nat × Nat) (e : StartEnv) (golden : Bool) (us : Nat) : State :=
  let s := s.modBoot fun b => { b with paOff := pa.1, paLen := pa.2, paEnd := pa.1 }
  let hdr := s.flRead area.1 288
  let n (a : Nat) : Nat := leNat ((hdr.drop a).take 4)
  let c := hdrCode [0x50, 0x56, 0x49, 0x4D] [b2n s.fuse.m] (min 7340032 area.2) hdr
  if c ≠ Code.done then s.failAttempt c 2 0
  else
    let l := s.flRead area.1 (n 8)
    if !s.signed l then s.failAttempt Code.authFail 3 0
    else match s.openImage l with
      | .error c => s.failAttempt c 4 0
      | .ok body =>
        let t := s.bootBody (n 16) e body
        if t.boot.tried.contains k then t else t.bootEnd golden (n 12) (some us)

/-- BOOT: the boot ROM works through its stages, on one slot and, if that fails, on the other. -/
def State.boot_ (s : State) (env : BootEnv) : State :=
  if !s.booting || s.boot.stage ≠ 0 then s
  else
    let s := s.setFld Adr.BOOT_FL_INFO 0 16 env.flashMbit
    match s.directory with
    | none => s.recover
    | some (copy, l) =>
      let areas := dirAreas l
      let area (i : Nat) : Nat × Nat := areas.getD i (0, 0)
      let s := (s.setFld Adr.BOOT_FL_INFO 16 1 (leNat ((l.drop 5).take 1))).modBoot fun b => { b with
        dirCopy := copy, logOff := (area 4).1, logLen := (area 4).2 }
      let go (i : Nat) (s : State) : State :=
        if !s.booting then s
        else match s.slot? with
          | none => s
          | some k => s.attempt k (area k) (area (2 + k)) (env.starts.getD i ⟨[], [], ⟨[], true, []⟩⟩) (env.golden.getD i true) env.us
      go 1 (go 0 s)

/-- RESET_N: a pulse shorter than 1 µs is ignored; a longer one resets the device (R398, R481; log 28). -/
def State.resetPin (s : State) (lowNs : Nat) : State := if lowNs < 1000 then s else s.hardReset s.boot.held

/-- A monitored rail stays low for more than 2 µs (R472). -/
def State.supplyLow_ (s : State) (ns : Nat) : State := if 2000 < ns then s.hardReset true else s

/-- The rail returns: the device boots. -/
def State.supplyBack (s : State) (env : BootEnv) : State :=
  if s.boot.held then (s.modBoot fun b => { b with held := false }).boot_ env else s

/-- A write of 1 to BOOT_CTL.RESTART over interface f; in RECOVERY the device boots again (R419). -/
def State.bootRestart_ (s : State) (f : Iface) (env : BootEnv) : State :=
  let again := s.boot.stage = 11
  let s := s.write f Adr.BOOT_CTL (s.reg Adr.BOOT_CTL ||| 0x100)
  if again then s.boot_ env else s

end Sys2Proof.Machine
end

