-- ==== Sys2Proof/Machine/BootCmds.lean ====
section
/-! DEFINITION. The meanings of the commands whose operations stand in Boot.lean and Reset.lean. -/

namespace Sys2Proof.Machine

/-- POWER_ON (R398, R471). -/
def execPowerOn (s : State) : Eff := runs s fun s => s.hardReset false

/-- RESET_N (R398, R473, R481). -/
def execResetN (lowNs : Nat) (s : State) : Eff := runs s fun s => s.resetPin lowNs

/-- SUPPLY_LOW (R472). -/
def execSupplyLow (ns : Nat) (s : State) : Eff := runs s fun s => s.supplyLow_ ns

/-- BOOT (R400 to R419). -/
def execBoot (env : BootEnv) (s : State) : Eff := runs s fun s => s.boot_ env

/-- REGS (R407). -/
def execRegs (pairs : List (Nat × Word)) (s : State) : Eff := runs s fun s => s.record (.regs pairs)

/-- UCODE (R406). -/
def execUcode (start : Nat) (words : List Word) (s : State) : Eff := runs s fun s => s.record (.ucode start words)

/-- SCHED (R406). -/
def execSched (first : Nat) (entries : List (Word × Word)) (s : State) : Eff := runs s fun s => s.record (.sched first entries)

/-- DMEM (R406). -/
def execDmem (addr : Nat) (words : List Word) (s : State) : Eff := runs s fun s => s.record (.dmem addr words)

/-- PATCH (R408). -/
def execPatch (id : Word) (ranges : List (Nat × List Word)) (s : State) : Eff := runs s fun s => s.record (.patch id ranges)

/-- REPAIR_RECORD (R409). -/
def execRepairRecord (entries : List RepairEntry) (s : State) : Eff := runs s fun s => s.record (.repairRecord entries)

/-- START (R413 to R415). -/
def execStart (steps : List StartStep) (env : StartEnv) (s : State) : Eff := runs s fun s => s.record (.start steps env)

/-- INFO (R406). -/
def execInfo (bytes : List Byte) (s : State) : Eff := runs s fun s => s.record (.info bytes)

/-- END (R405, R410 to R417). -/
def execEndRecord (s : State) : Eff := runs s fun s => s.recordEnd

/-- VOLT (R413, R416). -/
def execVolt (mv : Nat) (reached : Bool) (s : State) : Eff := runs s fun s => s.stepCmd (.volt mv) ⟨[reached], [], ⟨[], true, []⟩⟩

/-- PLL (R413, R416). -/
def execPll (n : Nat) (vco : Word) (locked : Bool) (s : State) : Eff :=
  runs s fun s => s.stepCmd (.pll n vco.toNat) ⟨[], [locked], ⟨[], true, []⟩⟩

/-- CLKSEL (R413). -/
def execClksel (dom src : Nat) (s : State) : Eff := runs s fun s => s.stepCmd (.clksel dom src) ⟨[], [], ⟨[], true, []⟩⟩

/-- POWER as a start step (R413). -/
def execStartPower (dom st : Nat) (s : State) : Eff := runs s fun s => s.stepCmd (.power dom st) ⟨[], [], ⟨[], true, []⟩⟩

/-- TRAIN (R413, R415, R416, R479). -/
def execTrain (pkgs : Nat) (env : TrainEnv) (s : State) : Eff := runs s fun s => s.stepCmd (.train pkgs) ⟨[], [], env⟩

/-- WAIT as a start step (R413). -/
def execStartWait (us : Nat) (s : State) : Eff := runs s fun s => s.stepCmd (.wait us) ⟨[], [], ⟨[], true, []⟩⟩

/-- A write of 1 to BOOT_CTL.RESTART (R419). -/
def execBootRestart (f : Iface) (env : BootEnv) (s : State) : Eff := runs s fun s => s.bootRestart_ f env

/-- SUPPLY_RETURN (R472). -/
def execSupplyReturn (env : BootEnv) (s : State) : Eff := runs s fun s => s.supplyBack env

end Sys2Proof.Machine
end

