-- ==== Sys2Proof/Machine/BusCmds.lean ====
section
/-! DEFINITION. The meanings of the commands that are one access to BAR0 over an interface. An index beyond a register's range
names no register, and such a command has no effect. -/

namespace Sys2Proof.Machine

/-- An effect of a command whose index is within its range. -/
def State.ix (s : State) (ok : Bool) (f : State → State) : State := if ok then f s else s

/-- XCV_TX_FIR (R329, R350). -/
def execXcvTxFir (g lane : Nat) (val : Word) (f : Iface) (s : State) : Eff :=
  runs s fun s => s.ix (g < 4 && lane < 4) fun s => s.write f (Adr.XCV_TX_FIR g lane) val

/-- COMMIT (R317): the list length stays as written before. -/
def execCommit (p : Nat) (f : Iface) (s : State) : Eff := runs s fun s => s.ix (p < 8) fun s =>
  s.write f (Adr.SCH_P_CL_CTL p) (BitVec.ofNat 32 (s.fld (Adr.SCH_P_CL_CTL p) 0 6 + 256))

/-- CANCEL (R317). -/
def execCancel (p : Nat) (f : Iface) (s : State) : Eff := runs s fun s => s.ix (p < 8) fun s =>
  s.write f (Adr.SCH_P_CL_CTL p) (BitVec.ofNat 32 (s.fld (Adr.SCH_P_CL_CTL p) 0 6 + 512))

/-- BP_H_ALLOC (R262). -/
def execBpHAlloc (f : Iface) (val : Word) (s : State) : Eff := runs s fun s => s.write f Adr.BP_H_ALLOC val

/-- BP_H_FREE (R262): `ecc` says that the read of the buffer's owner is uncorrectable (R260). -/
def execBpHFree (f : Iface) (val : Word) (ecc : Bool) (s : State) : Eff := runs s fun s =>
  if ecc ∧ s.gate false Adr.BP_H_FREE = Code.done ∧ s.badWrite f false Adr.BP_H_FREE val = Code.done then (s.hostFree val true).2
  else s.write f Adr.BP_H_FREE val

/-- BP_P_MINFREE (R262). -/
def execBpPMinfree (f : Iface) (k : Nat) (s : State) : Eff :=
  runs s fun s => s.ix (k < 6) fun s => s.readAns f (Adr.BP_P_MINFREE k)

/-- DMA_C_DB (R363). -/
def execDmaCDb (k : Nat) (tail : Word) (f : Iface) (s : State) : Eff :=
  runs s fun s => s.ix (k < 32) fun s => s.write f (Adr.DMA_C_DB k) tail

/-- DMA_C_GO (R365). -/
def execDmaCGo (k : Nat) (val : Word) (f : Iface) (s : State) : Eff :=
  runs s fun s => s.ix (k < 32) fun s => s.write f (Adr.DMA_C_GO k) val

/-- DMA_C_EN_CLEAR (R366). -/
def execDmaCEnClear (k : Nat) (f : Iface) (s : State) : Eff :=
  runs s fun s => s.ix (k < 32) fun s => s.write f (Adr.DMA_C_CTL k) 0

/-- DMA_CTL_EN_CLEAR (R366). -/
def execDmaCtlEnClear (f : Iface) (s : State) : Eff := runs s fun s => s.write f Adr.DMA_CTL 0

/-- DMA_C_RST (R366): EN stays as it is. -/
def execDmaCRst (k : Nat) (f : Iface) (s : State) : Eff := runs s fun s => s.ix (k < 32) fun s =>
  s.write f (Adr.DMA_C_CTL k) (BitVec.ofNat 32 (b2n (s.flag (Adr.DMA_C_CTL k) 0) + 2))

/-- RESUME (R364): EN stays as it is. -/
def execResume (k : Nat) (f : Iface) (s : State) : Eff := runs s fun s => s.ix (k < 32) fun s =>
  s.write f (Adr.DMA_C_CTL k) (BitVec.ofNat 32 (b2n (s.flag (Adr.DMA_C_CTL k) 0) + 4))

/-- IC_CLAIM (R387): a read of the claim register of a class. -/
def execIcClaim (target : Nat) (fast : Bool) (f : Iface) (s : State) : Eff :=
  runs s fun s => s.ix (target < 4) fun s => s.readAns f (Adr.IC_CLAIM (b2n fast) target)

/-- IC_COMPLETE (R388): a write of the claim register of a class. -/
def execIcComplete (target : Nat) (fast : Bool) (val : Word) (f : Iface) (s : State) : Eff :=
  runs s fun s => s.ix (target < 4) fun s => s.write f (Adr.IC_CLAIM (b2n fast) target) val

/-- IC_PEND_SET (R390). -/
def execIcPendSet (n : Nat) (val : Word) (f : Iface) (s : State) : Eff :=
  runs s fun s => s.ix (n < 8) fun s => s.write f (Adr.IC_PEND_SET n) val

/-- PTP_SET_GO (R352): a write of PTP_SET_S_HI with GO = 1. -/
def execPtpSetGo (f : Iface) (val : Word) (s : State) : Eff :=
  runs s fun s => s.write f Adr.PTP_SET_S_HI (val ||| 0x80000000)

/-- PTP_TIME_NS (R352): a read of PTP_TIME_NS. -/
def execPtpTimeNs (f : Iface) (s : State) : Eff := runs s fun s => s.readAns f Adr.PTP_TIME_NS

/-- FAULT_INJECT (R462): a write of FLT_INJ_CTL. -/
def execFaultInject (f : Iface) (val : Word) (s : State) : Eff := runs s fun s => s.write f Adr.FLT_INJ_CTL val

/-- FLT_STAT_CLEAR (R457, R463): a write of FLT_STAT. -/
def execFltStatClear (f : Iface) (val : Word) (s : State) : Eff := runs s fun s => s.write f Adr.FLT_STAT val

/-- FABRIC_RESET (R40, R245, R247): a write of QF_RESET with ALL = 1. -/
def execFabricReset (f : Iface) (s : State) : Eff := runs s fun s => s.write f Adr.QF_RESET 1

/-- Q_RESET (R245, R246): a write of QF_Q_OP with OP = 2. -/
def execQReset (q : Nat) (f : Iface) (s : State) : Eff :=
  runs s fun s => s.ix (q < 4096) fun s => s.write f (Adr.QF_Q_OP q) 2

/-- CHAIN_WALK_DONE (R245). -/
def execChainWalkDone (q : Nat) (s : State) : Eff := runs s fun s => s.walkEnd q

/-- NOTICE_TAKE (R229, R246, R261): the consumer takes the oldest notice, or the host reads QF_Q_NOTICE at 0x6C. -/
def execNoticeTake (q : Nat) (by_ : Taker) (s : State) : Eff := runs s fun s => s.ix (q < 4096) fun s =>
  match by_ with
  | .consumer => s.takeNotice q
  | .host f => s.readAns f (Adr.QF_Q_NOTICE q 3)

/-- RDATA_READ (R246): the host reads QF_Q_RDATA at 0x9C. -/
def execRdataRead (q : Nat) (f : Iface) (flip : Bool) (s : State) : Eff :=
  runs s fun s => s.ix (q < 4096) fun s => s.readAns f (Adr.QF_Q_RDATA q 7) flip

/-- HST_ACC_ERR (R376): a write of HST_ACC_ERR. -/
def execHstAccErr (f : Iface) (val : Word) (s : State) : Eff := runs s fun s => s.write f Adr.HST_ACC_ERR val

/-- PAIR_LO_READ (R11). -/
def execPairLoRead (f : Iface) (addr : Nat) (s : State) : Eff := runs s fun s => s.readAns f addr

/-- PAIR_HI_WRITE (R11). -/
def execPairHiWrite (f : Iface) (addr : Nat) (val : Word) (s : State) : Eff := runs s fun s => s.write f addr val

/-- RC_READ (R8, R372): a read of one or more words; a longer request than the endpoint takes is aborted, and is recorded. -/
def execRcRead (f : Iface) (addr words : Nat) (s : State) : Eff := runs s fun s =>
  if longRequest f words then (s.accErr f addr false Code.tooLong).answer f []
  else
    let r := s.readBurst f addr words
    r.2.answer f r.1

/-- REGISTER_WRITE (R8 to R13, R372): writes of words at rising addresses, each with its byte enables and each judged alone; a
longer request than the endpoint takes is aborted, and is recorded. -/
def execRegisterWrite (f : Iface) (addr : Nat) (words : List (Nat × Word)) (s : State) : Eff := runs s fun s =>
  if longRequest f words.length then s.accErr f addr true Code.tooLong
  else iter words.zipIdx (fun (x : (Nat × Word) × Nat) s => s.writeBe f (addr + 4 * x.2) x.1.1 x.1.2) s

/-- READ (R420): a write of BOOT_FL_OP with OP = 0. -/
def execRead (f : Iface) (s : State) : Eff := runs s fun s => s.write f Adr.BOOT_FL_OP 0

/-- PROGRAM (R420): OP = 1. -/
def execProgram (f : Iface) (s : State) : Eff := runs s fun s => s.write f Adr.BOOT_FL_OP 1

/-- ERASE_4K (R420): OP = 2. -/
def execErase4k (f : Iface) (s : State) : Eff := runs s fun s => s.write f Adr.BOOT_FL_OP 2

/-- ERASE_64K (R420): OP = 3. -/
def execErase64k (f : Iface) (s : State) : Eff := runs s fun s => s.write f Adr.BOOT_FL_OP 3

end Sys2Proof.Machine
end

