-- ==== Sys2Proof/Machine/CodecCmds.lean ====
section
/-! DEFINITION. The meanings of the commands whose operations stand in Codec.lean. -/

namespace Sys2Proof.Machine

/-- CBR_ROW_DECISION: `stall` is the cycles that the row waited for window loads. -/
def execCbrRowDecision (e : Nat) (finer coarser : SliceOut) (stall : Nat) (s : State) : Eff :=
  runs s fun s => s.cbrRow e finer coarser stall

end Sys2Proof.Machine
end

