-- ==== Sys2Proof/Machine/DmaCmds.lean ====
section
/-! DEFINITION. The meanings of the commands whose operations stand in Dma.lean. -/

namespace Sys2Proof.Machine

/-- DESCRIPTOR_READ (R363). -/
def execDescriptorRead (k : Nat) (words : List Word) (s : State) : Eff := runs s fun s => s.dmaFetch k words

/-- DESCRIPTOR_COMPLETE (R360). -/
def execDescriptorComplete (k : Nat) (env : DmaEnv) (s : State) : Eff := runs s fun s => s.dmaComplete k env

/-- HOST_READ_FAIL (R361). -/
def execHostReadFail (k : Nat) (timeout : Bool) (s : State) : Eff := runs s fun s => s.dmaHostFail k timeout

/-- DMA_BUSY_CLEAR (R366). -/
def execDmaBusyClear (k : Nat) (s : State) : Eff := runs s fun s => s.dmaIdle k

end Sys2Proof.Machine
end

