-- ==== Sys2Proof/Machine/DramCmds.lean ====
section
/-! DEFINITION. The meanings of the commands whose operations stand in Dram.lean. -/

namespace Sys2Proof.Machine

/-- DRAM_REQUEST, arriving at local time t. -/
def execDramRequest (port addr : Nat) (op : DramOp) (t : Nat) (s : State) : Eff :=
  runs s fun s => (s.at_ t).dramRequest port addr op

/-- ROW_BATCH. -/
def execRowBatch (ch : Nat) (errs : List Ecc) (t : Nat) (s : State) : Eff := runs s fun s => s.rowBatch ch errs t

/-- WRITE_BATCH. -/
def execWriteBatch (ch t : Nat) (s : State) : Eff := runs s fun s => s.writeBatch ch t

/-- REFRESH. -/
def execRefresh (ch : Nat) (s : State) : Eff := runs s fun s => s.refresh ch

/-- MR4_POLL. -/
def execMr4Poll (ch rate : Nat) (s : State) : Eff := runs s fun s => s.mr4Poll ch rate

/-- POWER_DOWN_ENTRY. -/
def execPowerDownEntry (ch : Nat) (s : State) : Eff := runs s fun s => s.powerDown ch

/-- SELF_REFRESH_ENTRY. -/
def execSelfRefreshEntry (ch : Nat) (s : State) : Eff := runs s fun s => s.selfRefresh ch

/-- PATROL_SCRUB. -/
def execPatrolScrub (ch : Nat) (ecc : Ecc) (s : State) : Eff := runs s fun s => s.patrol ch ecc

/-- WCK2DQ_OSC. -/
def execWck2dqOsc (ch : Nat) (ok : Bool) (s : State) : Eff := runs s fun s => s.wckOsc ch ok

/-- ZQ_LATCH. -/
def execZqLatch (n : Nat) (s : State) : Eff := runs s fun s => s.zqLatch n

/-- EVACUATION_DONE, with the blocks that could not be read. -/
def execEvacuationDone (ch lost : Nat) (s : State) : Eff := runs s fun s => s.chanEvacuated ch lost

/-- CHANNEL_REPAIR: whether every step of R295 passes, and the rows repaired. -/
def execChannelRepair (ch : Nat) (ok : Bool) (rows : Nat) (s : State) : Eff := runs s fun s => s.chanFixed ch ok rows

/-- RETURN_DONE. -/
def execReturnDone (ch : Nat) (s : State) : Eff := runs s fun s => s.chanReturned ch

end Sys2Proof.Machine
end

