-- ==== Sys2Proof/Machine/EgressCmds.lean ====
section
/-! DEFINITION. The meanings of the commands whose operations stand in Egress.lean. -/

namespace Sys2Proof.Machine

/-- NOTICE_ISSUE. -/
def execNoticeIssue (q t : Nat) (s : State) : Eff := runs s fun s => s.noticeIssue q t

/-- PRODUCER_REWIND. -/
def execProducerRewind (q clasp : Nat) (s : State) : Eff := runs s fun s =>
  let r := s.rewind q clasp
  (r.2.schSync q).fabAns r.1 0

/-- CONSUMER_REWIND. -/
def execConsumerRewind (q clasp : Nat) (s : State) : Eff := runs s fun s =>
  let r := s.consRewind q clasp
  (r.2.schSync q).fabAns r.1 0

/-- RELEASE: a released input queue of a Ferry channel raises its credit (R336). -/
def execRelease (q clasp : Nat) (s : State) : Eff := runs s fun s =>
  let r := s.release q clasp
  r.2.creditScan.fabAns r.1 0

/-- UNIT_CHOICE. -/
def execUnitChoice (p t : Nat) (s : State) : Eff := runs s fun s => s.unitChoice p t

/-- WHEEL_SLOT. -/
def execWheelSlot (t : Nat) (s : State) : Eff := runs s fun s => s.wheelSlot t

/-- GATE_WINDOW: the windows follow from the tick and the time (R313). -/
def execGateWindow (p t : Nat) (s : State) : Eff := runs s fun s => s.gateMoved p t

/-- GATE_ENTRY: the gates follow from the oper list and PTP time (R315). -/
def execGateEntry (p t : Nat) (s : State) : Eff := runs s fun s => s.gateMoved p t

/-- LIST_SWAP. -/
def execListSwap (p t : Nat) (s : State) : Eff := runs s fun s => s.listSwap p t

/-- ACK. -/
def execAck (g seq : Nat) (s : State) : Eff := runs s fun s => if s.ferryUp g then (s.ferryAckTo g seq).creditScan else s

/-- NAK. -/
def execNak (g seq : Nat) (s : State) : Eff := runs s fun s => (s.ferryNakAt g seq).syncAll

/-- REPLAY_TMO: no ACK progress for REPLAY_TMO µs. -/
def execReplayTmo (g : Nat) (s : State) : Eff := runs s fun s => (s.ferryTmo g).syncAll

end Sys2Proof.Machine
end

