-- ==== Sys2Proof/Machine/FacetEngineCmds.lean ====
section
/-! DEFINITION. The meanings of the commands whose operations stand in FacetEngine.lean. -/

namespace Sys2Proof.Machine

/-- ROW_DECISION: the next row in decision order, after `stall` engine cycles in which a lane with a full window was stalled. -/
def execRowDecision (e stall : Nat) (s : State) : Eff := runs s fun s => s.rowDecision e stall

/-- BAND_FINAL. -/
def execBandFinal (e : Nat) (s : State) : Eff := runs s fun s => s.bandFinal e

/-- BAND_MOVED. -/
def execBandMoved (e : Nat) (s : State) : Eff := runs s fun s => s.bandMoved e

end Sys2Proof.Machine
end

