-- ==== Sys2Proof/Machine/FerryCmds.lean ====
section
/-! DEFINITION. The meanings of the commands whose operations stand in Ferry.lean. -/

namespace Sys2Proof.Machine

/-- PKT. -/
def execPkt (g : Nat) (pkt : FerryPkt) (s : State) : Eff := runs s fun s => s.ferryPkt g pkt

/-- CREDIT. -/
def execCredit (g ch limit : Nat) (s : State) : Eff := runs s fun s => s.ferryLimit g ch limit

/-- CREDIT_SEND: 100 µs have passed, and a CREDIT block goes out for every enabled channel. -/
def execCreditSend (g : Nat) (s : State) : Eff := runs s fun s => if s.ferryUp g then s.creditAll g else s

/-- TRAIN_BLOCK. -/
def execTrainBlock (g : Nat) (blk : TrainBlk) (s : State) : Eff := runs s fun s => s.ferryTrain g blk

/-- FERRY_TIMEOUT. -/
def execFerryTimeout (g : Nat) (s : State) : Eff := runs s fun s => s.xcvTimeout g

/-- KEY_REQ: a message with SEQ, GROUP and TICK 0 (log 2001). -/
def execKeyReq (g arg : Nat) (s : State) : Eff := runs s fun s =>
  if s.ferryUp g then s.bcReceive g ([0x10, 0, 0, 0] ++ leBytes 2 arg ++ List.replicate 10 0) else s

/-- ETH_FRAME. -/
def execEthFrame (e : Nat) (frame : EthFrame) (s : State) : Eff := runs s fun s => s.ethRx e frame

/-- ETH_UP. -/
def execEthUp (e : Nat) (s : State) : Eff := runs s fun s => s.ethSetUp e

/-- ETH_DOWN, with the port's remaining locks and faults. -/
def execEthDown (e : Nat) (lock fec lf rf : Bool) (s : State) : Eff := runs s fun s => s.ethSetDown e lock fec lf rf

end Sys2Proof.Machine
end

