-- ==== Sys2Proof/Machine/HostCmds.lean ====
section
/-! DEFINITION. The meanings of the commands of the host: requests through a window (R377 to R383), the management SPI target
(R374, R375), BAR2 (R371), the PCIe endpoint (R373, R391) and the KEYREQ_N input (R481). Readings are log 31. -/

namespace Sys2Proof.Machine

/-- The 16 words of a record (R377). -/
def recordWords (op : Nat) (r : Req) : List Word :=
  [BitVec.ofNat 32 (op + 65536 * (r.target % 65536)), r.rsvd] ++ (List.range 14).map fun i => r.args.getD i 0

/-- A request: the host writes the record into its window, and its TAG to the doorbell (R378). -/
def State.request (s : State) (op : Nat) (r : Req) : State :=
  if 4 ≤ r.w then s
  else
    let s := iter (recordWords op r).zipIdx (fun (x : Word × Nat) s => s.write r.f (Adr.HST_W_REQ r.w x.2) x.1) s
    s.write r.f (Adr.HST_W_DB r.w) (BitVec.ofNat 32 (r.tag % 256))

/-- NOP (R381). -/
def execRequestNop (r : Req) (s : State) : Eff := runs s fun s => s.request 0x00 r

/-- FENCE (R381): `back` says that the read-back of a FENCE_HOST returns (R38). -/
def execFence (r : Req) (back : Bool) (s : State) : Eff := runs s fun s =>
  if back then (s.request 0x01 r).fenceReturn r.w else s.request 0x01 r

/-- STREAM_START (R381). -/
def execStreamStart (r : Req) (s : State) : Eff := runs s fun s => s.request 0x10 r

/-- STREAM_STOP (R381). -/
def execStreamStop (r : Req) (s : State) : Eff := runs s fun s => s.request 0x11 r

/-- KEY_PICTURE (R379, R381). -/
def execKeyPicture (r : Req) (s : State) : Eff := runs s fun s => s.request 0x12 r

/-- SET_RATE (R381). -/
def execSetRate (r : Req) (s : State) : Eff := runs s fun s => s.request 0x13 r

/-- RETIRE (R131, R160, R293, R381). -/
def execRetire (r : Req) (s : State) : Eff := runs s fun s => s.request 0x20 r

/-- REPAIR (R381, R455). -/
def execRepair (r : Req) (s : State) : Eff := runs s fun s => s.request 0x21 r

/-- RETRAIN (R381). -/
def execRetrain (r : Req) (s : State) : Eff := runs s fun s => s.request 0x22 r

/-- POWER (R381, R424). -/
def execPower (r : Req) (s : State) : Eff := runs s fun s => s.request 0x30 r

/-- OPERATING_POINT (R381, R443). -/
def execOperatingPoint (r : Req) (s : State) : Eff := runs s fun s => s.request 0x31 r

/-- SET_TICK (R22, R381). -/
def execSetTick (r : Req) (s : State) : Eff := runs s fun s => s.request 0x40 r

/-- QUEUE_RESET (R245, R381). -/
def execQueueReset (r : Req) (s : State) : Eff := runs s fun s => s.request 0x41 r

/-- PATCH_SUBMIT (R222, R381, R411). -/
def execPatchSubmit (r : Req) (s : State) : Eff := runs s fun s => s.request 0x50 r

/-- RESTART (R381, R398). -/
def execRestart (r : Req) (s : State) : Eff := runs s fun s => s.request 0x51 r

/-- FAULT_EXPORT (R460). -/
def execFaultExport (r : Req) (s : State) : Eff := runs s fun s => s.request 0x60 r

/-- FAULT_CLEAR (R461). -/
def execFaultClear (r : Req) (s : State) : Eff := runs s fun s => s.request 0x61 r

/-- SEQ_MAIL (R382). -/
def execSeqMail (r : Req) (s : State) : Eff := runs s fun s => s.request 0x70 r

/-- HST_W_SEQANS (R382): the microcode answers the request of a window, or the answer comes too late and is discarded. -/
def execHstWSeqans (w : Nat) (val : Word) (s : State) : Eff := runs s fun s => (s.seqAns w val).2

/-- SEQ_MAIL_TIMEOUT (R381). -/
def execSeqMailTimeout (w : Nat) (s : State) : Eff := runs s fun s => s.winTimeout w fun k => k = .mail

/-- FENCE_REQUEST_TIMEOUT (R381). -/
def execFenceRequestTimeout (w : Nat) (s : State) : Eff := runs s fun s => s.winTimeout w fun k => match k with
  | .fence _ _ _ => true
  | _ => false

/-! ### The management SPI target (R374, R375) -/

/-- MSPI_WRITE: whole words from rising addresses, and the bits of a partial word at the end. -/
def execMspiWrite (addr : Nat) (words : List Word) (bits : Nat) (s : State) : Eff := runs s fun s =>
  if addr % 4 ≠ 0 then s.bump Adr.HST_MSPI_CNT_ABORT
  else
    let s := iter words.zipIdx (fun (x : Word × Nat) s => s.write .mspi (addr + 4 * x.2) x.1) s
    if bits = 0 then s else s.bump Adr.HST_MSPI_CNT_ABORT

/-- MSPI_READ: words that the target has begun to shift out; it has read the one after the last of them (R375). -/
def execMspiRead (addr words : Nat) (s : State) : Eff := runs s fun s =>
  if addr % 4 ≠ 0 then (s.bump Adr.HST_MSPI_CNT_ABORT).answer .mspi (List.replicate words 0xFFFFFFFF)
  else
    let r := s.readBurst .mspi addr (if words = 0 then 0 else words + 1)
    r.2.answer .mspi (r.1.take words)

/-! ### PCIe -/

/-- BAR2_ACCESS (R371, R269, R13, R399): one TLP on DRAM port 12. -/
def execBar2Access (offset : Nat) (op : DramOp) (s : State) : Eff := runs s fun s =>
  if !s.domUp 21 || 2 ^ s.fld Adr.HST_BAR2_CFG 0 6 ≤ offset then s
  else
    let write := match op with
      | .read _ => false
      | .write _ => true
    let n := match op with
      | .read n => n
      | .write l => l.length
    let a := s.pair Adr.HST_BAR2_BASE_LO Adr.HST_BAR2_BASE_HI + offset
    let r := if s.boot.done then s.dramAccess 12 a op else (Code.notNow, [], s)
    let t := if r.1 = Code.done then r.2.2 else r.2.2.accErrAt 1 offset write r.1
    if write then t
    else t.answer .pcie (if r.1 = Code.done then wordsOf r.2.1
      else List.replicate n (if r.1 = Code.domainOff then 0xFF else 0))

/-- The endpoint's status changes: where the device may no longer issue requests, descriptors in flight are aborted (R373). -/
def State.pcieStat (s : State) (v : Word) : State :=
  let was := s.pcieUp
  let s := s.put Adr.HST_PCIE_STAT v
  if was && !s.pcieUp then s.dmaAbortHost else s

/-- PCIE_RESET (R373): the endpoint, its configuration space and the MSI-X table return to their reset values. -/
def execPcieReset (s : State) : Eff := runs s fun s =>
  let s := s.pcieStat 0
  { s with regs := s.regs.filter fun (r : Nat × Word) => !(0x3C000 ≤ r.1 && r.1 < 0x3E000) }

/-- BUS_MASTER_ENABLE_CLEAR (R373). -/
def execBusMasterEnableClear (s : State) : Eff := runs s fun s => s.pcieStat (s.z Adr.HST_PCIE_STAT &&& 0xFFFFFF7F)

/-- MSIX_DELIVERY (R391): the endpoint's link and configuration are as HST_PCIE_STAT now shows them. Messages that were held and
can now be sent are sent, where a line routed to their vector is still asserted. -/
def execMsixDelivery (stat : Word) (s : State) : Eff :=
  runs s fun s => if s.domUp 21 then s.pcieStat stat else s

/-! ### KEYREQ_N -/

/-- KEYREQ_N (R112, R147, R481): a low pulse of 40 ns or more is one request for every Facet record stream and every encode
context that runs. -/
def execKeyreqN (lowNs : Nat) (s : State) : Eff := runs s fun s =>
  if lowNs < 40 then s
  else
    let s := iter (s.running 0) (fun k s => s.askKey 1 k) s
    iter ((s.running 1).filter fun c => !s.cDec c) (fun c s => s.askKey 2 c) s

end Sys2Proof.Machine
end

