-- ==== Sys2Proof/Machine/LandingCmds.lean ====
section
/-! DEFINITION. The meanings of the commands whose operations stand in Landing.lean. -/

namespace Sys2Proof.Machine

/-- DATA_POSITION. -/
def execDataPosition (g : Nat) (blks : List LaneBlock) (s : State) : Eff := runs s fun s => s.lndData g blks

/-- PICTURE_START, received at local time t. -/
def execPictureStart (g : Nat) (blks : List LaneBlock) (t : Nat) (s : State) : Eff :=
  runs s fun s => s.ctlAt g blks (· = 0x33) fun d s => (s.at_ t).lndPictureStart g (dbits d 8 2) (dbits d 16 16) (dbits d 32 1 = 1)

/-- TIMECODE. -/
def execTimecode (g : Nat) (blks : List LaneBlock) (s : State) : Eff :=
  runs s fun s => s.ctlAt g blks (· = 0x3C) fun d s => s.lndTimecode g (BitVec.ofNat 32 (dbits d 8 32))

/-- METADATA: its data blocks follow in data positions. -/
def execMetadata (g : Nat) (blks : List LaneBlock) (s : State) : Eff :=
  runs s fun s => s.ctlAt g blks (· = 0x66) fun d s => s.lndMetadata g (dbits d 8 2) (dbits d 16 13)

/-- ROW_START. -/
def execRowStart (g : Nat) (blks : List LaneBlock) (s : State) : Eff :=
  runs s fun s => s.ctlAt g blks (· = 0x55) fun d s => s.lndRowStart g (dbits d 8 2) (dbits d 24 16)

/-- PICTURE_END. -/
def execPictureEnd (g : Nat) (blks : List LaneBlock) (s : State) : Eff :=
  runs s fun s => s.ctlAt g blks (· = 0x4E) fun d s => s.lndPictureEnd g (dbits d 8 2) (dbits d 32 16)

/-- REMAP_ACK. -/
def execRemapAck (g : Nat) (blks : List LaneBlock) (s : State) : Eff :=
  runs s fun s => s.ctlAt g blks (· = 0x78) fun d s => s.lndAck g (dbits d 8 8) (dbits d 16 1 = 0)

/-- REMAP_REFUSED: no answer came before the tick that follows the request. -/
def execRemapRefused (g : Nat) (s : State) : Eff := runs s fun s => s.askRefused g

end Sys2Proof.Machine
end

