-- ==== Sys2Proof/Machine/PlaybackCmds.lean ====
section
/-! DEFINITION. The meanings of the commands whose operations stand in Playback.lean. -/

namespace Sys2Proof.Machine

/-- PART. -/
def execPart (p : Nat) (s : State) : Eff := runs s fun s => s.part p

/-- PICTURE_CLOSE_TIMEOUT. -/
def execPictureCloseTimeout (p picture : Nat) (s : State) : Eff := runs s fun s => s.partTimeout p picture

/-- BANDS_DECODED. -/
def execBandsDecoded (p : Nat) (s : State) : Eff := runs s fun s => s.bandsDecoded p

/-- NAL_UNIT. -/
def execNalUnit (c : Nat) (nals : List NalInfo) (s : State) : Eff := runs s fun s => s.nalUnit c nals

/-- AU_CLOSE_TIMEOUT. -/
def execAuCloseTimeout (c : Nat) (s : State) : Eff := runs s fun s => s.auTimeout c

/-- KEY_RETRY. -/
def execKeyRetry (c : Nat) (s : State) : Eff := runs s fun s => s.keyRetry c

/-- CODEC_PICTURE_DONE: `busy` is the time in ns that the engine worked on the picture. -/
def execCodecPictureDone (e busy : Nat) (env : DecEnv) (s : State) : Eff := runs s fun s => s.codecDone e busy env

end Sys2Proof.Machine
end

