-- ==== Sys2Proof/Machine/PoolsCmds.lean ====
section
/-! DEFINITION. The meanings of the commands whose operations stand in Pools.lean. -/

namespace Sys2Proof.Machine

/-- ALLOCATE: one arbitration of a pool. -/
def execAllocate (pool : Nat) (asks : List AllocAsk) (s : State) : Eff := runs s fun s => s.allocate pool asks

/-- FREE: the frees of one cycle, each answered to its requester. -/
def execFree (asks : List FreeAsk) (s : State) : Eff := runs s fun s => s.freeAll asks

/-- CACHE_REFILL. -/
def execCacheRefill (k : Nat) (s : State) : Eff := runs s fun s => s.refillCache k

end Sys2Proof.Machine
end

