-- ==== Sys2Proof/Machine/PowerCmds.lean ====
section
/-! DEFINITION. The meanings of the commands whose operations stand in Power.lean. -/

namespace Sys2Proof.Machine

/-- WAKE (R68, R429). -/
def execWake (g : Nat) (s : State) : Eff := runs s fun s => s.wake g

/-- DRAIN_END (R427). -/
def execDrainEnd (d : Nat) (s : State) : Eff := runs s fun s => s.drainEnd d

/-- DRAIN_TIMEOUT (R427). -/
def execDrainTimeout (d : Nat) (s : State) : Eff := runs s fun s => s.drainTimeout d

/-- TRANS_DONE (R427). -/
def execTransDone (d : Nat) (s : State) : Eff := runs s fun s => s.transDone d

/-- AVS_LOOP (R435). -/
def execAvsLoop (env : AvsEnv) (s : State) : Eff := runs s fun s => s.avsLoop env

/-- SENSOR_READ (R437, R440, R444). -/
def execSensorRead (readings : List (Option Int)) (s : State) : Eff := runs s fun s => s.sensorRead readings

/-- THERMAL_LOOP (R439). -/
def execThermalLoop (s : State) : Eff := runs s fun s => s.thermalLoop

/-- OD_TIMEOUT (R443). -/
def execOdTimeout (s : State) : Eff := runs s fun s => s.odTimeout

/-- WEAR_BIN (R442). -/
def execWearBin (s : State) : Eff := runs s fun s => s.wearBin

/-- PLL_UNLOCK (R433). -/
def execPllUnlock (n : Nat) (s : State) : Eff := runs s fun s => s.pllUnlock n

/-- PLL_RELOCK (R433). -/
def execPllRelock (n : Nat) (s : State) : Eff := runs s fun s => s.pllRelock n

/-- XTAL_LOST (R433). -/
def execXtalLost (s : State) : Eff := runs s fun s => s.xtalLost

/-- XTAL_RETURN (R433). -/
def execXtalReturn (s : State) : Eff := runs s fun s => s.xtalReturn

end Sys2Proof.Machine
end

