-- ==== Sys2Proof/Machine/PtpCmds.lean ====
section
/-! DEFINITION. The meanings of the commands whose operations stand in Ptp.lean. -/

namespace Sys2Proof.Machine

/-- SYNC (R347, R348). -/
def execSync (m : PtpMsg) (s : State) : Eff := runs s fun s => s.ptpTake m fun s =>
  if !s.fromMaster m then s
  else if m.twoStep then s.modPtp fun p => { p with sync := some (m.seq, s.ptpAt m.t, m.corr) }
  else s.ptpUse ((m.time : Int) + m.corr).toNat (s.ptpAt m.t)

/-- FOLLOW_UP (R347). -/
def execFollowUp (m : PtpMsg) (s : State) : Eff := runs s fun s => s.ptpTake m fun s =>
  match s.ptp.sync with
  | some (q, t2, c) => if s.fromMaster m && q = m.seq then s.ptpUse ((m.time : Int) + c + m.corr).toNat t2 else s
  | none => s

/-- ANNOUNCE (R347, R348). -/
def execAnnounce (m : PtpMsg) (s : State) : Eff := runs s fun s => s.ptpTake m fun s =>
  (s.modPtp fun p => { p with foreign := putForeign ⟨m.src, m.port, m.gm, m.t⟩ p.foreign }).ptpSelect

/-- DELAY_RESP (R347): the end-to-end mean path delay. -/
def execDelayResp (m : PtpMsg) (s : State) : Eff := runs s fun s => s.ptpTake m fun s =>
  match s.ptp.req with
  | some (q, t3) =>
    if m.mine && s.fromMaster m && q = m.seq && s.ptpProfile = 0 then
      s.setMpd (((s.ptp.t2 : Int) - s.ptp.t1 + (m.time - m.corr - t3)) / 2)
    else s
  | none => s

/-- PDELAY_REQ (R347): a Pdelay_Req is answered under profile 1, with the time of its receipt and then the time of the answer. -/
def execPdelayReq (m : PtpMsg) (s : State) : Eff := runs s fun s => s.ptpTake m fun s =>
  if s.ptpProfile = 1 then (s.emit (.ptp 3 m.seq (s.ptpAt m.t))).emit (.ptp 10 m.seq s.ptpNow)
  else s.bump Adr.PTP_CNT_BAD

/-- PDELAY_RESP (R347): the peer delay, from a one-step response, or from a two-step response and its follow-up. -/
def execPdelayResp (m : PtpMsg) (s : State) : Eff := runs s fun s => s.ptpTake m fun s =>
  match s.ptp.req with
  | some (q, t1) =>
    if m.mine && q = m.seq && s.ptpProfile = 1 then
      match s.ptp.resp with
      | some (_, x) => s.setMpd ((x - m.time - m.corr) / 2)
      | none =>
        if m.twoStep then s.modPtp fun p => { p with resp := some (q, (s.ptpAt m.t : Int) - t1 + m.time - m.corr) }
        else s.setMpd (((s.ptpAt m.t : Int) - t1 - m.corr) / 2)
    else s
  | none => s

/-- DELAY_REQ_SEND (R347): a Delay_Req to a selected time-transmitter, or a Pdelay_Req. -/
def execDelayReqSend (t : Nat) (s : State) : Eff := runs s fun s =>
  let s := s.at_ t
  if s.ptpSrc ≠ 0 || !s.ethUp s.ptpPort || (s.ptpProfile = 0 && s.ptp.master.isNone) then s
  else
    let q := s.ptp.nextSeq
    (s.modPtp fun p => { p with req := some (q, s.ptpNow), resp := none, nextSeq := (q + 1) % 65536 }).emit
      (.ptp (1 + s.ptpProfile) q s.ptpNow)

/-- ANNOUNCE_TMO (R348): HOLDOVER at the last frequency. -/
def execAnnounceTmo (s : State) : Eff := runs s fun s =>
  match s.ptp.master with
  | none => s
  | some (a, b) =>
    (s.modPtp fun p => { p with
      master := none
      st := 4
      good := 0
      sync := none
      foreign := p.foreign.filter fun f => !(f.src = a && f.port = b) }).raise Adr.PTP_EVT 4

/-- PPS_IN (R346): a rising edge starts a second, the nearest one. -/
def execPpsIn (t : Nat) (s : State) : Eff := runs s fun s =>
  let s := s.at_ t
  if s.ptpSrc = 1 then s.ptpSet ((s.ptpNow + 500000000) / 1000000000 * 1000000000) else s

end Sys2Proof.Machine
end

