-- ==== Sys2Proof/Machine/QueuesCmds.lean ====
section
/-! DEFINITION. The meanings of the commands whose operations stand in Queues.lean. -/

namespace Sys2Proof.Machine

/-- PACKET_START. -/
def execPacketStart (q : Nat) (prods : List Nat) (s : State) : Eff := runs s fun s =>
  let r := s.pktStart q prods
  (r.2.fabAns r.1 0)

/-- ENQUEUE. -/
def execEnqueue (q prod : Nat) (bytes : List Byte) (poison : Bool) (s : State) : Eff := runs s fun s =>
  let r := s.enqueue q prod bytes poison
  (r.2.fabAns r.1 0)

/-- EOP. -/
def execEop (q prod tag : Nat) (fence : PktFence) (ref : Option Nat) (ecc : Bool) (s : State) : Eff := runs s fun s =>
  let r := s.eop q prod tag fence ref ecc
  (r.2.fabAns r.1 0)

/-- MARK: TAIL, and no effect on the queue (R231). -/
def execMark (q _prod : Nat) (s : State) : Eff := runs s fun s =>
  match s.qRefuse q with
  | some c => (s.fabAns c 0)
  | none => (s.fabAns Code.done ((s.queue q).tail % 2 ^ 32))

/-- HEAD_REFILL. -/
def execHeadRefill (q words : Nat) (bad : List Nat) (linkBad : Bool) (s : State) : Eff := runs s fun s =>
  (s.headRefill q words bad linkBad)

end Sys2Proof.Machine
end

