-- ==== Sys2Proof/Machine/SeqCmds.lean ====
section
/-! DEFINITION. The meanings of the sequencer's commands: boundaries, microwords and unit commands. A microword is executed
where the running list's PC names it; elsewhere its command has no effect (log 33). -/

namespace Sys2Proof.Machine

/-- BOUNDARY (R198), at the instant t. -/
def execBoundary (t soft : Nat) (s : State) : Eff :=
  runs s fun s => (s.at_ t).boundary soft

/-- NOP (R204). -/
def execNop (s : State) : Eff :=
  runs s fun s => s.onList .nop 1 id

/-- STEP_END (R197). -/
def execStepEnd (s : State) : Eff :=
  runs s fun s => s.stepEnd

/-- TICK_END (R204). -/
def execTickEnd (s : State) : Eff :=
  runs s fun s => s.tickEnd

/-- HALT (R204). -/
def execHalt (s : State) : Eff :=
  runs s fun s => s.haltWord

/-- LDI (R204). -/
def execLdi (gd : Reg) (imm : Nat) (s : State) : Eff :=
  runs s fun s => s.onList (.ldi gd imm) 1 fun x => x.setG gd (BitVec.ofNat 32 imm)

/-- LDHI (R204). -/
def execLdhi (gd : Reg) (imm : Nat) (s : State) : Eff :=
  runs s fun s => s.onList (.ldhi gd imm) 1 fun x => x.setG gd (BitVec.ofNat 32 (imm * 65536 + (x.gr gd).toNat % 65536))

/-- ADD (R204). -/
def execAdd (gd : Reg) (ga : Reg) (gb : Reg) (imm : Nat) (s : State) : Eff :=
  runs s fun s => s.onList (.add gd ga gb imm) 1 fun x => x.op2 gd ga gb fun a b => a + b + simm imm

/-- SUB (R204). -/
def execSub (gd : Reg) (ga : Reg) (gb : Reg) (imm : Nat) (s : State) : Eff :=
  runs s fun s => s.onList (.sub gd ga gb imm) 1 fun x => x.op2 gd ga gb fun a b => a - b - simm imm

/-- AND (R204). -/
def execAnd (gd : Reg) (ga : Reg) (gb : Reg) (s : State) : Eff :=
  runs s fun s => s.onList (.and gd ga gb) 1 fun x => x.op2 gd ga gb fun a b => a &&& b

/-- OR (R204). -/
def execOr (gd : Reg) (ga : Reg) (gb : Reg) (s : State) : Eff :=
  runs s fun s => s.onList (.or gd ga gb) 1 fun x => x.op2 gd ga gb fun a b => a ||| b

/-- XOR (R204). -/
def execXor (gd : Reg) (ga : Reg) (gb : Reg) (s : State) : Eff :=
  runs s fun s => s.onList (.xor gd ga gb) 1 fun x => x.op2 gd ga gb fun a b => a ^^^ b

/-- SHL (R204) by IMM14[4:0]. -/
def execShl (gd : Reg) (ga : Reg) (imm : Nat) (s : State) : Eff :=
  runs s fun s => s.onList (.shl gd ga imm) 1 fun x => x.setG gd (x.gr ga <<< (imm % 32))

/-- SHR (R204) by IMM14[4:0], logical. -/
def execShr (gd : Reg) (ga : Reg) (imm : Nat) (s : State) : Eff :=
  runs s fun s => s.onList (.shr gd ga imm) 1 fun x => x.setG gd (x.gr ga >>> (imm % 32))

/-- SAR (R204) by IMM14[4:0], arithmetic. -/
def execSar (gd : Reg) (ga : Reg) (imm : Nat) (s : State) : Eff :=
  runs s fun s => s.onList (.sar gd ga imm) 1 fun x => x.setG gd ((x.gr ga).sshiftRight (imm % 32))

/-- CMP (R204). -/
def execCmp (ga : Reg) (gb : Reg) (imm : Nat) (s : State) : Eff :=
  runs s fun s => s.onList (.cmp ga gb imm) 1 fun x => x.compare ga gb imm

/-- LD (R204): ecc is what the check of the data memory word finds. -/
def execLd (gd : Reg) (ga : Reg) (imm : Nat) (ecc : Ecc) (s : State) : Eff :=
  runs s fun s => s.loadWord gd ga imm ecc

/-- ST (R204). -/
def execSt (ga : Reg) (gb : Reg) (imm : Nat) (s : State) : Eff :=
  runs s fun s => s.storeWord ga gb imm

/-- RDREG (R207): cyc is the cycles taken, at most 48. -/
def execRdreg (gd : Reg) (ga : Reg) (imm : Nat) (cyc : Nat) (s : State) : Eff :=
  runs s fun s => s.seqRead gd ga imm cyc

/-- WRREG (R207): cyc is the cycles taken, at most 48. -/
def execWrreg (ga : Reg) (gb : Reg) (imm : Nat) (cyc : Nat) (s : State) : Eff :=
  runs s fun s => s.seqWrite ga gb imm cyc

/-- BR (R204). -/
def execBr (cond : Cond) (target : Nat) (s : State) : Eff :=
  runs s fun s => s.branch cond target

/-- CALL (R204). -/
def execCall (cond : Cond) (target : Nat) (s : State) : Eff :=
  runs s fun s => s.callTo cond target

/-- RET (R204). -/
def execRet (s : State) : Eff :=
  runs s fun s => s.returnFrom

/-- EVT_SET (R204). -/
def execEvtSet (ev : Nat) (s : State) : Eff :=
  runs s fun s => s.micro (.evtSet ev) 1 fun _ s => s.occur ev

/-- WAIT (R210), executed at the instant t. -/
def execWait (ev : Nat) (unit : Nat) (count : Nat) (t : Nat) (s : State) : Eff :=
  runs s fun s => (s.at_ t).suspend (.wait ev unit count 0) (.event ev) unit count

/-- WAIT_TIMEOUT (R210) of list l, at a boundary. -/
def execWaitTimeout (l : Nat) (s : State) : Eff :=
  runs s fun s => s.endWait l fun k => match k with | .event _ => true | _ => false

/-- SLEEP (R210), executed at the instant t. -/
def execSleep (unit : Nat) (count : Nat) (t : Nat) (s : State) : Eff :=
  runs s fun s => (s.at_ t).suspend (.sleep unit count 0) .sleep unit count

/-- SLEEP_END (R210) of list l, at a boundary. -/
def execSleepEnd (l : Nat) (s : State) : Eff :=
  runs s fun s => s.endWait l fun k => k = .sleep

/-- FENCE_WR (R212), executed at the instant t. -/
def execFenceWr (unit : Nat) (count : Nat) (t : Nat) (s : State) : Eff :=
  runs s fun s => (s.at_ t).suspend (.fenceWr unit count 0) (.fence 0) unit count

/-- FENCE_RW (R212), executed at the instant t. -/
def execFenceRw (unit : Nat) (count : Nat) (t : Nat) (s : State) : Eff :=
  runs s fun s => (s.at_ t).suspend (.fenceRw unit count 0) (.fence 1) unit count

/-- FENCE_HOST (R212), executed at the instant t. -/
def execFenceHost (unit : Nat) (count : Nat) (t : Nat) (s : State) : Eff :=
  runs s fun s => (s.at_ t).suspend (.fenceHost unit count 0) (.fence 3) unit count

/-- FENCE_DONE (R212): list l's fence completes. -/
def execFenceDone (l : Nat) (s : State) : Eff :=
  runs s fun s => s.fenceOver l

/-- FENCE_TIMEOUT (R212) of list l, at a boundary. -/
def execFenceTimeout (l : Nat) (s : State) : Eff :=
  runs s fun s => s.endWait l Susp.isFence

/-- FENCE_ENG (R212): cyc is the cycles taken, at most 40 for each engine named. -/
def execFenceEng (gd : Reg) (imm : Nat) (cyc : Nat) (s : State) : Eff :=
  runs s fun s => s.fenceEng gd imm cyc

/-- BUDGET (R204). -/
def execBudget (gd : Reg) (s : State) : Eff :=
  runs s fun s => s.budgetLeft gd

/-- TICKNO (R204). -/
def execTickno (gd : Reg) (imm : Nat) (s : State) : Eff :=
  runs s fun s => s.tickNo gd imm

/-- FCT_BAND (R204). -/
def execFctBand (gd : Reg) (ga : Reg) (gb : Reg) (imm : Nat) (s : State) : Eff :=
  runs s fun s => s.unitCmd (.fctBand gd ga gb imm) gd ga gb fun _ a b s => s.fctBand a b imm

/-- FCT_MOVE (R215). -/
def execFctMove (gd : Reg) (ga : Reg) (gb : Reg) (imm : Nat) (s : State) : Eff :=
  runs s fun s => s.unitCmd (.fctMove gd ga gb imm) gd ga gb fun _ a b s => s.fctMove a b

/-- FCT_CLOSE (R109). -/
def execFctClose (gd : Reg) (ga : Reg) (gb : Reg) (imm : Nat) (s : State) : Eff :=
  runs s fun s => s.unitCmd (.fctClose gd ga gb imm) gd ga gb fun _ a _ s => s.fctClose a

/-- FCT_DEC (R174). -/
def execFctDec (gd : Reg) (ga : Reg) (gb : Reg) (imm : Nat) (s : State) : Eff :=
  runs s fun s => s.unitCmd (.fctDec gd ga gb imm) gd ga gb fun _ a b s => s.fctDec a b

/-- FCT_ABORT (R216). -/
def execFctAbort (gd : Reg) (ga : Reg) (gb : Reg) (imm : Nat) (s : State) : Eff :=
  runs s fun s => s.unitCmd (.fctAbort gd ga gb imm) gd ga gb fun _ a _ s => s.abortEngine a

/-- COD_PIC (R204). -/
def execCodPic (gd : Reg) (ga : Reg) (gb : Reg) (imm : Nat) (s : State) : Eff :=
  runs s fun s => s.unitCmd (.codPic gd ga gb imm) gd ga gb fun _ a _ s => withZero (s.codPic a imm)

/-- COD_ROW (R32). -/
def execCodRow (gd : Reg) (ga : Reg) (gb : Reg) (imm : Nat) (s : State) : Eff :=
  runs s fun s => s.unitCmd (.codRow gd ga gb imm) gd ga gb fun _ a b s => withZero (s.codRow a b)

/-- OUT_PIC (R188). -/
def execOutPic (gd : Reg) (ga : Reg) (gb : Reg) (imm : Nat) (s : State) : Eff :=
  runs s fun s => s.unitCmd (.outPic gd ga gb imm) gd ga gb fun _ a _ s => s.outPic a

/-- Q_MARK (R504). -/
def execQMark (gd : Reg) (ga : Reg) (gb : Reg) (imm : Nat) (s : State) : Eff :=
  runs s fun s => s.unitCmd (.qMark gd ga gb imm) gd ga gb fun l a _ s => s.inFabric fun s => s.markQueue l a imm

/-- Q_REWIND (R504). -/
def execQRewind (gd : Reg) (ga : Reg) (gb : Reg) (imm : Nat) (s : State) : Eff :=
  runs s fun s => s.unitCmd (.qRewind gd ga gb imm) gd ga gb fun _ a b s => s.inFabric fun s => s.seqRewind a b imm

/-- Q_RELEASE (R504). -/
def execQRelease (gd : Reg) (ga : Reg) (gb : Reg) (imm : Nat) (s : State) : Eff :=
  runs s fun s => s.unitCmd (.qRelease gd ga gb imm) gd ga gb fun _ a b s => s.inFabric fun s => s.seqRelease a b imm

/-- Q_NOTE (R204). -/
def execQNote (gd : Reg) (ga : Reg) (gb : Reg) (imm : Nat) (s : State) : Eff :=
  runs s fun s => s.unitCmd (.qNote gd ga gb imm) gd ga gb fun _ a b s => s.inFabric fun s => s.noteQueue a b

/-- DMA_GO (R204). -/
def execDmaGo (gd : Reg) (ga : Reg) (gb : Reg) (imm : Nat) (s : State) : Eff :=
  runs s fun s => s.unitCmd (.dmaGo gd ga gb imm) gd ga gb fun _ a b s => s.inFabric fun s => withZero (s.dmaGo a b)

/-- BC_SEND (R338). -/
def execBcSend (gd : Reg) (ga : Reg) (gb : Reg) (imm : Nat) (s : State) : Eff :=
  runs s fun s => s.unitCmd (.bcSend gd ga gb imm) gd ga gb fun _ a b s => s.sendBack a b imm

/-- FLT_REPORT (R204). -/
def execFltReport (gd : Reg) (ga : Reg) (gb : Reg) (imm : Nat) (s : State) : Eff :=
  runs s fun s => s.unitCmd (.fltReport gd ga gb imm) gd ga gb fun _ _ b s => ((Code.done, 0), s.reportSw 4 (0x4000 + imm) 0 b)

/-- COD_ABORT (R161). -/
def execCodAbort (gd : Reg) (ga : Reg) (gb : Reg) (imm : Nat) (s : State) : Eff :=
  runs s fun s => s.unitCmd (.codAbort gd ga gb imm) gd ga gb fun _ a _ s => withZero (s.codAbort a)

/-- PWR_REQ (R428). -/
def execPwrReq (gd : Reg) (ga : Reg) (gb : Reg) (imm : Nat) (s : State) : Eff :=
  runs s fun s => s.unitCmd (.pwrReq gd ga gb imm) gd ga gb fun _ a b s => s.seqPower a b

/-- ILLEGAL (R206): the running list stands at a word that is illegal. -/
def execIllegal (s : State) : Eff :=
  runs s fun s => match s.seq.cur with
  | none => s
  | some l => if (s.wordAt l).all fun i => s.misuse l i then s.illegalWord l else s

/-- CS_RELOAD (R219): mem 0 is the control store, 1 the schedule table, 2 the list table. -/
def execCsReload (mem : Nat) (index : Nat) (scrub : Bool) (goldBad : Bool) (s : State) : Eff :=
  runs s fun s => s.csReload mem index scrub goldBad

/-- SCRUB (R218). -/
def execScrub (addr : Nat) (ecc : Ecc) (s : State) : Eff :=
  runs s fun s => s.scrub addr ecc

end Sys2Proof.Machine
end

