-- ==== Sys2Proof/Machine/ServiceCmds.lean ====
section
/-! DEFINITION. The meanings of the commands of fault collection and of the flash. -/

namespace Sys2Proof.Machine

/-- FAULT_REPORT (R446 to R449): a block raises an error, and the collector takes it. -/
def execFaultReport (rep : Report) (s : State) : Eff := runs s fun s => s.raiseRep rep false false

/-- SELF_TEST_DONE (R451, R453): the test of the element that the first waiting record of a unit names ends with what it
found: 0 it passes, 1 a word fails and a redundant row is free, else it fails. -/
def execSelfTestDone (unit res : Nat) (s : State) : Eff := runs s fun s =>
  match s.flt.tests.find? fun t => t.unit = unit with
  | some r => s.endTest r.testKey (s.testOutcome r res)
  | none => s

/-- TEST_TIMEOUT (R453): the test that has run longest gives LASTING. -/
def execTestTimeout (s : State) : Eff := runs s fun s =>
  match s.flt.tests with
  | r :: _ => s.endTest r.testKey .lasting
  | [] => s

/-- AUTO_REPAIR (R455). -/
def execAutoRepair (s : State) : Eff := runs s fun s => s.autoRepair

/-- REPAIR_DONE (R455): the attempt of the unit that a TARGET names ends. -/
def execRepairDone (unit : Nat) (ok : Bool) (s : State) : Eff := runs s fun s =>
  match fltUnit unit with
  | some u => s.repairDone u ok
  | none => s

/-- LOG_APPEND (R456). -/
def execLogAppend (s : State) : Eff := runs s fun s => s.logAppend

/-- FLASH_OP_DONE (R420). -/
def execFlashOpDone (ok : Bool) (s : State) : Eff := runs s fun s => s.flDone ok

end Sys2Proof.Machine
end

