-- ==== Sys2Proof/Machine/TickCmds.lean ====
section
/-! DEFINITION. The meanings of the tick's commands; t is the instant in ns of local time. -/

namespace Sys2Proof.Machine

/-- TICK_IN_EDGE (R19): an edge of TICK_IN, or a picture start of a sensor. -/
def execTickInEdge (src : TickEdge) (t : Nat) (s : State) : Eff := runs s fun s => (s.at_ t).tickEdge src

/-- PTP_TICK_INSTANT (R17). -/
def execPtpTickInstant (t : Nat) (s : State) : Eff := runs s fun s => (s.at_ t).tickInstant 2

/-- TIMER_TICK (R17). -/
def execTimerTick (t : Nat) (s : State) : Eff := runs s fun s => (s.at_ t).tickInstant 3

/-- TICK_HOLDOVER (R20). -/
def execTickHoldover (t : Nat) (s : State) : Eff := runs s fun s => (s.at_ t).tickHoldover

/-- HOLDOVER_TICK (R20). -/
def execHoldoverTick (t : Nat) (s : State) : Eff := runs s fun s => (s.at_ t).holdoverTick

/-- LIVE_OVERRUN (R28): a slice of a LIVE context has not left its port within the bound. -/
def execLiveOverrun (ctx : Nat) (s : State) : Eff := runs s fun s => s.liveOverrun ctx

end Sys2Proof.Machine
end

