-- ==== Sys2Proof/Machine/TrainingCmds.lean ====
section
/-! DEFINITION. The meanings of the commands of lane training, whose operations stand in Landing.lean and Ferry.lean. -/

namespace Sys2Proof.Machine

/-- SIGNAL_DETECT: lanes with signal. -/
def execSignalDetect (k : Link) (lanes : Nat) (s : State) : Eff := runs s fun s => match k with
  | .landing g => s.lndSignal g lanes
  | .crossing g => s.xcvSignal g lanes

/-- CDR_LOCK: lanes whose clock-data recovery reports lock. -/
def execCdrLock (k : Link) (lanes : Nat) (s : State) : Eff := runs s fun s => match k with
  | .landing g => s.lndCdr g lanes
  | .crossing g => s.xcvCdr g lanes

/-- BLOCK_LOCK: lanes that have reached block lock. -/
def execBlockLock (k : Link) (lanes : Nat) (s : State) : Eff := runs s fun s => match k with
  | .landing g => s.lndBlock g lanes
  | .crossing g => s.xcvBlock g lanes

/-- EQ_SEARCH_DONE: each lane's eye opening at the 16 steps. -/
def execEqSearchDone (k : Link) (openings : List (List Nat)) (s : State) : Eff := runs s fun s => match k with
  | .landing g => s.lndEq g openings
  | .crossing g => s.xcvEq g openings

/-- TRAINING_TIMEOUT. -/
def execTrainingTimeout (k : Link) (s : State) : Eff := runs s fun s => match k with
  | .landing g => s.lndTimeout g
  | .crossing g => s.xcvTimeout g

/-- FAILED_RETRAIN: 1 ms after FAILED. -/
def execFailedRetrain (k : Link) (s : State) : Eff := runs s fun s => match k with
  | .landing g => s.lndRetrain g
  | .crossing g => s.xcvRetrain g

/-- EQ_ADAPT: each lane's openings at the present step and the steps below and above. -/
def execEqAdapt (k : Link) (openings : List (Nat × Nat × Nat)) (s : State) : Eff := runs s fun s => match k with
  | .landing g => s.lndAdapt g openings
  | .crossing g => s.xcvAdapt g openings

/-- LOCK_LOSS of one lane. -/
def execLockLoss (k : Link) (lane : Nat) (s : State) : Eff := runs s fun s => match k with
  | .landing g => s.lndLose g lane
  | .crossing g => s.xcvLose g lane

/-- IDLE: on Landing a control block that ends a row in progress (R57); on the Ferry link it stands between packets. -/
def execIdle (k : Link) (blks : List LaneBlock) (s : State) : Eff := runs s fun s => match k with
  | .landing g => s.ctlAt g blks (· = 0x1E) fun _ s => s.cutRow g
  | .crossing _ => s

/-- DESKEW: the markers of one position. -/
def execDeskew (k : Link) (marks : List DeskewMark) (s : State) : Eff := runs s fun s => match k with
  | .landing g => s.lndDeskew g marks
  | .crossing g => s.xcvDeskew g marks

/-- LOST_CONTROL_BLOCK: no copy of a control position has a correct CRC-8 (R51). A row in progress stays open: what the next control
block that is read does to it, that block does (log 1511). -/
def execLostControlBlock (k : Link) (blks : List LaneBlock) (s : State) : Eff := runs s fun s => match k with
  | .landing g => if s.lgUp g && (s.ctlCopies g blks).isEmpty then (s.heads g blks).ctlReserved g else s
  | .crossing g => s.xcvBad g

/-- RESERVED_BLOCK_TYPE: a control block of a type that the link has not (R51, R330). -/
def execReservedBlockType (k : Link) (blks : List LaneBlock) (s : State) : Eff := runs s fun s => match k with
  | .landing g => s.ctlAt g blks (fun t => !ctlTypes.contains t) fun _ s => (s.cutRow g).ctlReserved g
  | .crossing g => s.xcvBad g

end Sys2Proof.Machine
end

