-- ==== Sys2Proof/Machine/Dispatch.lean ====
section
/-! DEFINITION. One arm for each command, each a direct call of its meaning. -/

namespace Sys2Proof.Machine

def exec (i : Instr) (s : State) : Host.Outcome State Fault Refusal :=
  match i with
  | .powerOn => Sys2Proof.Machine.execPowerOn s
  | .resetN lowNs => Sys2Proof.Machine.execResetN lowNs s
  | .supplyLow ns => Sys2Proof.Machine.execSupplyLow ns s
  | .boot env => Sys2Proof.Machine.execBoot env s
  | .regs pairs => Sys2Proof.Machine.execRegs pairs s
  | .ucode start words => Sys2Proof.Machine.execUcode start words s
  | .sched first entries => Sys2Proof.Machine.execSched first entries s
  | .dmem addr words => Sys2Proof.Machine.execDmem addr words s
  | .patch id ranges => Sys2Proof.Machine.execPatch id ranges s
  | .repairRecord entries => Sys2Proof.Machine.execRepairRecord entries s
  | .start steps env => Sys2Proof.Machine.execStart steps env s
  | .info bytes => Sys2Proof.Machine.execInfo bytes s
  | .endRecord => Sys2Proof.Machine.execEndRecord s
  | .volt mv reached => Sys2Proof.Machine.execVolt mv reached s
  | .pll n vco locked => Sys2Proof.Machine.execPll n vco locked s
  | .clksel dom src => Sys2Proof.Machine.execClksel dom src s
  | .startPower dom st => Sys2Proof.Machine.execStartPower dom st s
  | .train pkgs env => Sys2Proof.Machine.execTrain pkgs env s
  | .startWait us => Sys2Proof.Machine.execStartWait us s
  | .read f => Sys2Proof.Machine.execRead f s
  | .program f => Sys2Proof.Machine.execProgram f s
  | .erase4k f => Sys2Proof.Machine.execErase4k f s
  | .erase64k f => Sys2Proof.Machine.execErase64k f s
  | .bootRestart f env => Sys2Proof.Machine.execBootRestart f env s
  | .tickInEdge src t => Sys2Proof.Machine.execTickInEdge src t s
  | .ptpTickInstant t => Sys2Proof.Machine.execPtpTickInstant t s
  | .timerTick t => Sys2Proof.Machine.execTimerTick t s
  | .tickHoldover t => Sys2Proof.Machine.execTickHoldover t s
  | .holdoverTick t => Sys2Proof.Machine.execHoldoverTick t s
  | .liveOverrun ctx => Sys2Proof.Machine.execLiveOverrun ctx s
  | .boundary t soft => Sys2Proof.Machine.execBoundary t soft s
  | .nop => Sys2Proof.Machine.execNop s
  | .stepEnd => Sys2Proof.Machine.execStepEnd s
  | .tickEnd => Sys2Proof.Machine.execTickEnd s
  | .halt => Sys2Proof.Machine.execHalt s
  | .ldi gd imm => Sys2Proof.Machine.execLdi gd imm s
  | .ldhi gd imm => Sys2Proof.Machine.execLdhi gd imm s
  | .add gd ga gb imm => Sys2Proof.Machine.execAdd gd ga gb imm s
  | .sub gd ga gb imm => Sys2Proof.Machine.execSub gd ga gb imm s
  | .and gd ga gb => Sys2Proof.Machine.execAnd gd ga gb s
  | .or gd ga gb => Sys2Proof.Machine.execOr gd ga gb s
  | .xor gd ga gb => Sys2Proof.Machine.execXor gd ga gb s
  | .shl gd ga imm => Sys2Proof.Machine.execShl gd ga imm s
  | .shr gd ga imm => Sys2Proof.Machine.execShr gd ga imm s
  | .sar gd ga imm => Sys2Proof.Machine.execSar gd ga imm s
  | .cmp ga gb imm => Sys2Proof.Machine.execCmp ga gb imm s
  | .ld gd ga imm ecc => Sys2Proof.Machine.execLd gd ga imm ecc s
  | .st ga gb imm => Sys2Proof.Machine.execSt ga gb imm s
  | .rdreg gd ga imm cyc => Sys2Proof.Machine.execRdreg gd ga imm cyc s
  | .wrreg ga gb imm cyc => Sys2Proof.Machine.execWrreg ga gb imm cyc s
  | .br cond target => Sys2Proof.Machine.execBr cond target s
  | .call cond target => Sys2Proof.Machine.execCall cond target s
  | .ret => Sys2Proof.Machine.execRet s
  | .evtSet ev => Sys2Proof.Machine.execEvtSet ev s
  | .wait ev unit count t => Sys2Proof.Machine.execWait ev unit count t s
  | .waitTimeout l => Sys2Proof.Machine.execWaitTimeout l s
  | .sleep unit count t => Sys2Proof.Machine.execSleep unit count t s
  | .sleepEnd l => Sys2Proof.Machine.execSleepEnd l s
  | .fenceWr unit count t => Sys2Proof.Machine.execFenceWr unit count t s
  | .fenceRw unit count t => Sys2Proof.Machine.execFenceRw unit count t s
  | .fenceHost unit count t => Sys2Proof.Machine.execFenceHost unit count t s
  | .fenceDone l => Sys2Proof.Machine.execFenceDone l s
  | .fenceTimeout l => Sys2Proof.Machine.execFenceTimeout l s
  | .fenceEng gd imm cyc => Sys2Proof.Machine.execFenceEng gd imm cyc s
  | .budget gd => Sys2Proof.Machine.execBudget gd s
  | .tickno gd imm => Sys2Proof.Machine.execTickno gd imm s
  | .fctBand gd ga gb imm => Sys2Proof.Machine.execFctBand gd ga gb imm s
  | .fctMove gd ga gb imm => Sys2Proof.Machine.execFctMove gd ga gb imm s
  | .fctClose gd ga gb imm => Sys2Proof.Machine.execFctClose gd ga gb imm s
  | .fctDec gd ga gb imm => Sys2Proof.Machine.execFctDec gd ga gb imm s
  | .fctAbort gd ga gb imm => Sys2Proof.Machine.execFctAbort gd ga gb imm s
  | .codPic gd ga gb imm => Sys2Proof.Machine.execCodPic gd ga gb imm s
  | .codRow gd ga gb imm => Sys2Proof.Machine.execCodRow gd ga gb imm s
  | .outPic gd ga gb imm => Sys2Proof.Machine.execOutPic gd ga gb imm s
  | .qMark gd ga gb imm => Sys2Proof.Machine.execQMark gd ga gb imm s
  | .qRewind gd ga gb imm => Sys2Proof.Machine.execQRewind gd ga gb imm s
  | .qRelease gd ga gb imm => Sys2Proof.Machine.execQRelease gd ga gb imm s
  | .qNote gd ga gb imm => Sys2Proof.Machine.execQNote gd ga gb imm s
  | .dmaGo gd ga gb imm => Sys2Proof.Machine.execDmaGo gd ga gb imm s
  | .bcSend gd ga gb imm => Sys2Proof.Machine.execBcSend gd ga gb imm s
  | .fltReport gd ga gb imm => Sys2Proof.Machine.execFltReport gd ga gb imm s
  | .codAbort gd ga gb imm => Sys2Proof.Machine.execCodAbort gd ga gb imm s
  | .pwrReq gd ga gb imm => Sys2Proof.Machine.execPwrReq gd ga gb imm s
  | .illegal => Sys2Proof.Machine.execIllegal s
  | .csReload mem index scrub goldBad => Sys2Proof.Machine.execCsReload mem index scrub goldBad s
  | .scrub addr ecc => Sys2Proof.Machine.execScrub addr ecc s
  | .signalDetect k lanes => Sys2Proof.Machine.execSignalDetect k lanes s
  | .cdrLock k lanes => Sys2Proof.Machine.execCdrLock k lanes s
  | .blockLock k lanes => Sys2Proof.Machine.execBlockLock k lanes s
  | .eqSearchDone k openings => Sys2Proof.Machine.execEqSearchDone k openings s
  | .trainingTimeout k => Sys2Proof.Machine.execTrainingTimeout k s
  | .failedRetrain k => Sys2Proof.Machine.execFailedRetrain k s
  | .eqAdapt k openings => Sys2Proof.Machine.execEqAdapt k openings s
  | .lockLoss k lane => Sys2Proof.Machine.execLockLoss k lane s
  | .dataPosition g blks => Sys2Proof.Machine.execDataPosition g blks s
  | .idle k blks => Sys2Proof.Machine.execIdle k blks s
  | .deskew k marks => Sys2Proof.Machine.execDeskew k marks s
  | .pictureStart g blks t => Sys2Proof.Machine.execPictureStart g blks t s
  | .timecode g blks => Sys2Proof.Machine.execTimecode g blks s
  | .metadata g blks => Sys2Proof.Machine.execMetadata g blks s
  | .rowStart g blks => Sys2Proof.Machine.execRowStart g blks s
  | .pictureEnd g blks => Sys2Proof.Machine.execPictureEnd g blks s
  | .remapAck g blks => Sys2Proof.Machine.execRemapAck g blks s
  | .lostControlBlock k blks => Sys2Proof.Machine.execLostControlBlock k blks s
  | .remapRefused g => Sys2Proof.Machine.execRemapRefused g s
  | .wake g => Sys2Proof.Machine.execWake g s
  | .rowDecision e stall => Sys2Proof.Machine.execRowDecision e stall s
  | .bandFinal e => Sys2Proof.Machine.execBandFinal e s
  | .bandMoved e => Sys2Proof.Machine.execBandMoved e s
  | .cbrRowDecision e finer coarser capped => Sys2Proof.Machine.execCbrRowDecision e finer coarser capped s
  | .codecPictureDone e busy env => Sys2Proof.Machine.execCodecPictureDone e busy env s
  | .part p => Sys2Proof.Machine.execPart p s
  | .pictureCloseTimeout p picture => Sys2Proof.Machine.execPictureCloseTimeout p picture s
  | .bandsDecoded p => Sys2Proof.Machine.execBandsDecoded p s
  | .nalUnit c nals => Sys2Proof.Machine.execNalUnit c nals s
  | .auCloseTimeout c => Sys2Proof.Machine.execAuCloseTimeout c s
  | .keyRetry c => Sys2Proof.Machine.execKeyRetry c s
  | .packetStart q prods => Sys2Proof.Machine.execPacketStart q prods s
  | .enqueue q prod bytes poison => Sys2Proof.Machine.execEnqueue q prod bytes poison s
  | .eop q prod tag fence ref ecc => Sys2Proof.Machine.execEop q prod tag fence ref ecc s
  | .noticeIssue q t => Sys2Proof.Machine.execNoticeIssue q t s
  | .noticeTake q by_ => Sys2Proof.Machine.execNoticeTake q by_ s
  | .rdataRead q f flip => Sys2Proof.Machine.execRdataRead q f flip s
  | .mark q prod => Sys2Proof.Machine.execMark q prod s
  | .producerRewind q clasp => Sys2Proof.Machine.execProducerRewind q clasp s
  | .consumerRewind q clasp => Sys2Proof.Machine.execConsumerRewind q clasp s
  | .release q clasp => Sys2Proof.Machine.execRelease q clasp s
  | .qReset q f => Sys2Proof.Machine.execQReset q f s
  | .chainWalkDone q => Sys2Proof.Machine.execChainWalkDone q s
  | .fabricReset f => Sys2Proof.Machine.execFabricReset f s
  | .headRefill q words bad linkBad => Sys2Proof.Machine.execHeadRefill q words bad linkBad s
  | .allocate pool asks => Sys2Proof.Machine.execAllocate pool asks s
  | .free asks => Sys2Proof.Machine.execFree asks s
  | .cacheRefill k => Sys2Proof.Machine.execCacheRefill k s
  | .bpHAlloc f val => Sys2Proof.Machine.execBpHAlloc f val s
  | .bpHFree f val ecc => Sys2Proof.Machine.execBpHFree f val ecc s
  | .bpPMinfree f k => Sys2Proof.Machine.execBpPMinfree f k s
  | .dramRequest port addr op t => Sys2Proof.Machine.execDramRequest port addr op t s
  | .rowBatch ch errs t => Sys2Proof.Machine.execRowBatch ch errs t s
  | .writeBatch ch t => Sys2Proof.Machine.execWriteBatch ch t s
  | .refresh ch => Sys2Proof.Machine.execRefresh ch s
  | .mr4Poll ch rate => Sys2Proof.Machine.execMr4Poll ch rate s
  | .powerDownEntry ch => Sys2Proof.Machine.execPowerDownEntry ch s
  | .selfRefreshEntry ch => Sys2Proof.Machine.execSelfRefreshEntry ch s
  | .patrolScrub ch ecc => Sys2Proof.Machine.execPatrolScrub ch ecc s
  | .wck2dqOsc ch ok => Sys2Proof.Machine.execWck2dqOsc ch ok s
  | .zqLatch n => Sys2Proof.Machine.execZqLatch n s
  | .evacuationDone ch lost => Sys2Proof.Machine.execEvacuationDone ch lost s
  | .channelRepair ch ok rows => Sys2Proof.Machine.execChannelRepair ch ok rows s
  | .returnDone ch => Sys2Proof.Machine.execReturnDone ch s
  | .unitChoice p t => Sys2Proof.Machine.execUnitChoice p t s
  | .wheelSlot t => Sys2Proof.Machine.execWheelSlot t s
  | .gateWindow p t => Sys2Proof.Machine.execGateWindow p t s
  | .gateEntry p t => Sys2Proof.Machine.execGateEntry p t s
  | .commit p f => Sys2Proof.Machine.execCommit p f s
  | .cancel p f => Sys2Proof.Machine.execCancel p f s
  | .listSwap p t => Sys2Proof.Machine.execListSwap p t s
  | .pkt g pkt => Sys2Proof.Machine.execPkt g pkt s
  | .ack g seq => Sys2Proof.Machine.execAck g seq s
  | .nak g seq => Sys2Proof.Machine.execNak g seq s
  | .replayTmo g => Sys2Proof.Machine.execReplayTmo g s
  | .credit g ch limit => Sys2Proof.Machine.execCredit g ch limit s
  | .creditSend g => Sys2Proof.Machine.execCreditSend g s
  | .trainBlock g blk => Sys2Proof.Machine.execTrainBlock g blk s
  | .ferryTimeout g => Sys2Proof.Machine.execFerryTimeout g s
  | .keyReq g arg => Sys2Proof.Machine.execKeyReq g arg s
  | .ethFrame e frame => Sys2Proof.Machine.execEthFrame e frame s
  | .ethUp e => Sys2Proof.Machine.execEthUp e s
  | .ethDown e lock fec lf rf => Sys2Proof.Machine.execEthDown e lock fec lf rf s
  | .xcvTxFir g lane val f => Sys2Proof.Machine.execXcvTxFir g lane val f s
  | .sync m => Sys2Proof.Machine.execSync m s
  | .followUp m => Sys2Proof.Machine.execFollowUp m s
  | .announce m => Sys2Proof.Machine.execAnnounce m s
  | .delayResp m => Sys2Proof.Machine.execDelayResp m s
  | .pdelayReq m => Sys2Proof.Machine.execPdelayReq m s
  | .pdelayResp m => Sys2Proof.Machine.execPdelayResp m s
  | .delayReqSend t => Sys2Proof.Machine.execDelayReqSend t s
  | .announceTmo => Sys2Proof.Machine.execAnnounceTmo s
  | .ppsIn t => Sys2Proof.Machine.execPpsIn t s
  | .ptpSetGo f val => Sys2Proof.Machine.execPtpSetGo f val s
  | .ptpTimeNs f => Sys2Proof.Machine.execPtpTimeNs f s
  | .dmaCDb k tail f => Sys2Proof.Machine.execDmaCDb k tail f s
  | .dmaCGo k val f => Sys2Proof.Machine.execDmaCGo k val f s
  | .descriptorRead k words => Sys2Proof.Machine.execDescriptorRead k words s
  | .descriptorComplete k env => Sys2Proof.Machine.execDescriptorComplete k env s
  | .hostReadFail k timeout => Sys2Proof.Machine.execHostReadFail k timeout s
  | .dmaCEnClear k f => Sys2Proof.Machine.execDmaCEnClear k f s
  | .dmaCtlEnClear f => Sys2Proof.Machine.execDmaCtlEnClear f s
  | .dmaCRst k f => Sys2Proof.Machine.execDmaCRst k f s
  | .resume k f => Sys2Proof.Machine.execResume k f s
  | .requestNop r => Sys2Proof.Machine.execRequestNop r s
  | .fence r back => Sys2Proof.Machine.execFence r back s
  | .streamStart r => Sys2Proof.Machine.execStreamStart r s
  | .streamStop r => Sys2Proof.Machine.execStreamStop r s
  | .keyPicture r => Sys2Proof.Machine.execKeyPicture r s
  | .setRate r => Sys2Proof.Machine.execSetRate r s
  | .retire r => Sys2Proof.Machine.execRetire r s
  | .repair r => Sys2Proof.Machine.execRepair r s
  | .retrain r => Sys2Proof.Machine.execRetrain r s
  | .power r => Sys2Proof.Machine.execPower r s
  | .operatingPoint r => Sys2Proof.Machine.execOperatingPoint r s
  | .setTick r => Sys2Proof.Machine.execSetTick r s
  | .queueReset r => Sys2Proof.Machine.execQueueReset r s
  | .patchSubmit r => Sys2Proof.Machine.execPatchSubmit r s
  | .restart r => Sys2Proof.Machine.execRestart r s
  | .faultExport r => Sys2Proof.Machine.execFaultExport r s
  | .faultClear r => Sys2Proof.Machine.execFaultClear r s
  | .seqMail r => Sys2Proof.Machine.execSeqMail r s
  | .hstWSeqans w val => Sys2Proof.Machine.execHstWSeqans w val s
  | .seqMailTimeout w => Sys2Proof.Machine.execSeqMailTimeout w s
  | .hstAccErr f val => Sys2Proof.Machine.execHstAccErr f val s
  | .icClaim target fast f => Sys2Proof.Machine.execIcClaim target fast f s
  | .icComplete target fast val f => Sys2Proof.Machine.execIcComplete target fast val f s
  | .icPendSet n val f => Sys2Proof.Machine.execIcPendSet n val f s
  | .msixDelivery stat => Sys2Proof.Machine.execMsixDelivery stat s
  | .mspiWrite addr words bits => Sys2Proof.Machine.execMspiWrite addr words bits s
  | .mspiRead addr words => Sys2Proof.Machine.execMspiRead addr words s
  | .pcieReset => Sys2Proof.Machine.execPcieReset s
  | .bar2Access offset op => Sys2Proof.Machine.execBar2Access offset op s
  | .pairLoRead f addr => Sys2Proof.Machine.execPairLoRead f addr s
  | .pairHiWrite f addr val => Sys2Proof.Machine.execPairHiWrite f addr val s
  | .rcRead f addr words => Sys2Proof.Machine.execRcRead f addr words s
  | .registerWrite f addr words => Sys2Proof.Machine.execRegisterWrite f addr words s
  | .keyreqN lowNs => Sys2Proof.Machine.execKeyreqN lowNs s
  | .faultReport rep => Sys2Proof.Machine.execFaultReport rep s
  | .selfTestDone unit res => Sys2Proof.Machine.execSelfTestDone unit res s
  | .testTimeout => Sys2Proof.Machine.execTestTimeout s
  | .autoRepair => Sys2Proof.Machine.execAutoRepair s
  | .repairDone unit ok => Sys2Proof.Machine.execRepairDone unit ok s
  | .logAppend => Sys2Proof.Machine.execLogAppend s
  | .faultInject f val => Sys2Proof.Machine.execFaultInject f val s
  | .fltStatClear f val => Sys2Proof.Machine.execFltStatClear f val s
  | .drainEnd d => Sys2Proof.Machine.execDrainEnd d s
  | .drainTimeout d => Sys2Proof.Machine.execDrainTimeout d s
  | .transDone d => Sys2Proof.Machine.execTransDone d s
  | .avsLoop env => Sys2Proof.Machine.execAvsLoop env s
  | .sensorRead readings => Sys2Proof.Machine.execSensorRead readings s
  | .thermalLoop => Sys2Proof.Machine.execThermalLoop s
  | .odTimeout => Sys2Proof.Machine.execOdTimeout s
  | .wearBin => Sys2Proof.Machine.execWearBin s
  | .pllUnlock n => Sys2Proof.Machine.execPllUnlock n s
  | .pllRelock n => Sys2Proof.Machine.execPllRelock n s
  | .xtalLost => Sys2Proof.Machine.execXtalLost s
  | .reservedBlockType k blks => Sys2Proof.Machine.execReservedBlockType k blks s
  | .busMasterEnableClear => Sys2Proof.Machine.execBusMasterEnableClear s
  | .fenceRequestTimeout w => Sys2Proof.Machine.execFenceRequestTimeout w s
  | .flashOpDone ok => Sys2Proof.Machine.execFlashOpDone ok s
  | .dmaBusyClear k => Sys2Proof.Machine.execDmaBusyClear k s
  | .xtalReturn => Sys2Proof.Machine.execXtalReturn s
  | .supplyReturn env => Sys2Proof.Machine.execSupplyReturn env s

end Sys2Proof.Machine
end

