-- ==== Sys2Proof/WellFormed.lean ====
section
/-! DEFINITION. Which commands are well formed: an index names a unit that some grade has (R4, R5), and the operand of a microword
fits its field (R201 to R206). A command that is not well formed still has a meaning: it names nothing, and the block's rules
say what follows. -/

namespace Sys2Proof

/-- A link of a Landing group 0 to 2 or of a Crossing group 0 to 3 (R4). -/
def linkOk : Link → Bool
  | .landing g => g < 3
  | .crossing g => g < 4

/-- Every index of the command is within its range, and every operand fits the field that would hold it. -/
def Instr.wf : Instr → Bool
  | .powerOn => true
  | .resetN .. => true
  | .supplyLow .. => true
  | .boot .. => true
  | .regs .. => true
  | .ucode a _ => a < 65536
  | .sched first _ => first < 4096
  | .dmem addr _ => addr % 4 = 0 && addr < 0x10000
  | .patch .. => true
  | .repairRecord .. => true
  | .start .. => true
  | .info .. => true
  | .endRecord => true
  | .volt .. => true
  | .pll n _ _ => n ≤ 6
  | .clksel dom src => dom < 30 && src ≤ 2
  | .startPower dom x => dom < 22 && x ≤ 2
  | .train pkgs _ => pkgs < 16
  | .startWait .. => true
  | .read .. => true
  | .program .. => true
  | .erase4k .. => true
  | .erase64k .. => true
  | .bootRestart .. => true
  | .tickInEdge .. => true
  | .ptpTickInstant .. => true
  | .timerTick .. => true
  | .tickHoldover .. => true
  | .holdoverTick .. => true
  | .liveOverrun ctx => ctx < 64
  | .boundary .. => true
  | .nop => true
  | .stepEnd => true
  | .tickEnd => true
  | .halt => true
  | .ldi _ imm => imm < 2 ^ 22
  | .ldhi _ imm => imm < 2 ^ 16
  | .add _ _ _ imm => imm < 2 ^ 14
  | .sub _ _ _ imm => imm < 2 ^ 14
  | .and .. => true
  | .or .. => true
  | .xor .. => true
  | .shl _ _ imm => imm < 2 ^ 14
  | .shr _ _ imm => imm < 2 ^ 14
  | .sar _ _ imm => imm < 2 ^ 14
  | .cmp _ _ imm => imm < 2 ^ 14
  | .ld _ _ imm _ => imm < 2 ^ 14
  | .st _ _ imm => imm < 2 ^ 14
  | .rdreg _ _ imm _ => imm < 2 ^ 14
  | .wrreg _ _ imm _ => imm < 2 ^ 14
  | .br _ target => target < 65536
  | .call _ target => target < 65536
  | .ret => true
  | .evtSet ev => 0xF0 ≤ ev && ev ≤ 0xFF
  | .wait ev unit count _ => 0 < ev && ev < 256 && !Machine.reservedEvent ev && unit < 4 && 0 < count && count < 65536
  | .waitTimeout l => l < 128
  | .sleep unit count _ => unit < 4 && 0 < count && count < 65536
  | .sleepEnd l => l < 128
  | .fenceWr unit count _ => unit < 4 && 0 < count && count < 65536
  | .fenceRw unit count _ => unit < 4 && 0 < count && count < 65536
  | .fenceHost unit count _ => unit < 4 && 0 < count && count < 65536
  | .fenceDone l => l < 128
  | .fenceTimeout l => l < 128
  | .fenceEng _ imm _ => imm < 2 ^ 14
  | .budget .. => true
  | .tickno _ imm => imm < 2 ^ 14
  | .fctBand _ _ _ imm => imm < 2 ^ 14
  | .fctMove _ _ _ imm => imm < 2 ^ 14
  | .fctClose _ _ _ imm => imm < 2 ^ 14
  | .fctDec _ _ _ imm => imm < 2 ^ 14
  | .fctAbort _ _ _ imm => imm < 2 ^ 14
  | .codPic _ _ _ imm => imm < 2 ^ 14
  | .codRow _ _ _ imm => imm < 2 ^ 14
  | .outPic _ _ _ imm => imm < 2 ^ 14
  | .qMark _ _ _ imm => imm < 2 ^ 14
  | .qRewind _ _ _ imm => imm < 2 ^ 14
  | .qRelease _ _ _ imm => imm < 2 ^ 14
  | .qNote _ _ _ imm => imm < 2 ^ 14
  | .dmaGo _ _ _ imm => imm < 2 ^ 14
  | .bcSend _ _ _ imm => imm < 2 ^ 14
  | .fltReport _ _ _ imm => imm < 2 ^ 14
  | .codAbort _ _ _ imm => imm < 2 ^ 14
  | .pwrReq _ _ _ imm => imm < 2 ^ 14
  | .illegal => true
  | .csReload mem index _ _ => mem < 3 && index < 65536
  | .scrub addr _ => addr < 65536
  | .signalDetect k _ => linkOk k
  | .cdrLock k _ => linkOk k
  | .blockLock k _ => linkOk k
  | .eqSearchDone k _ => linkOk k
  | .trainingTimeout k => linkOk k
  | .failedRetrain k => linkOk k
  | .eqAdapt k _ => linkOk k
  | .lockLoss k lane => linkOk k && lane < 8
  | .dataPosition g _ => g < 3
  | .idle k _ => linkOk k
  | .deskew k _ => linkOk k
  | .pictureStart g _ _ => g < 3
  | .timecode g _ => g < 3
  | .metadata g _ => g < 3
  | .rowStart g _ => g < 3
  | .pictureEnd g _ => g < 3
  | .remapAck g _ => g < 3
  | .lostControlBlock k _ => linkOk k
  | .remapRefused g => g < 3
  | .wake g => g < 3
  | .rowDecision e _ => e < 5
  | .bandFinal e => e < 5
  | .bandMoved e => e < 5
  | .cbrRowDecision e _ _ _ => e < 2
  | .codecPictureDone e _ _ => e < 2
  | .part p => p < 4
  | .pictureCloseTimeout p _ => p < 4
  | .bandsDecoded p => p < 4
  | .nalUnit c _ => c < 64
  | .auCloseTimeout c => c < 64
  | .keyRetry c => c < 64
  | .packetStart q prods => q < 4096 && prods.all (· < 15)
  | .enqueue q prod _ _ => q < 4096 && prod < 15
  | .eop q prod .. => q < 4096 && prod < 15
  | .noticeIssue q _ => q < 4096
  | .noticeTake q _ => q < 4096
  | .rdataRead q _ _ => q < 4096
  | .mark q prod => q < 4096 && prod < 15
  | .producerRewind q _ => q < 4096
  | .consumerRewind q _ => q < 4096
  | .release q _ => q < 4096
  | .qReset q _ => q < 4096
  | .chainWalkDone q => q < 4096
  | .fabricReset .. => true
  | .headRefill q _ _ _ => q < 4096
  | .allocate pool _ => pool < 6
  | .free asks => asks.all (·.r < 64)
  | .cacheRefill k => k < 6
  | .bpHAlloc .. => true
  | .bpHFree .. => true
  | .bpPMinfree _ k => k < 6
  | .dramRequest port _ _ _ => port < 14
  | .rowBatch ch _ _ => ch < 16
  | .writeBatch ch _ => ch < 16
  | .refresh ch => ch < 16
  | .mr4Poll ch rate => ch < 16 && rate < 3
  | .powerDownEntry ch => ch < 16
  | .selfRefreshEntry ch => ch < 16
  | .patrolScrub ch _ => ch < 16
  | .wck2dqOsc ch _ => ch < 16
  | .zqLatch n => n < 16
  | .evacuationDone ch _ => ch < 16
  | .channelRepair ch _ _ => ch < 16
  | .returnDone ch => ch < 16
  | .unitChoice p _ => p < 8
  | .wheelSlot .. => true
  | .gateWindow p _ => p < 8
  | .gateEntry p _ => p < 8
  | .commit p _ => p < 8
  | .cancel p _ => p < 8
  | .listSwap p _ => p < 8
  | .pkt g _ => g < 4
  | .ack g seq => g < 4 && seq < 65536
  | .nak g seq => g < 4 && seq < 65536
  | .replayTmo g => g < 4
  | .credit g ch _ => g < 4 && ch < 64
  | .creditSend g => g < 4
  | .trainBlock g _ => g < 4
  | .ferryTimeout g => g < 4
  | .keyReq g arg => g < 4 && arg < 65536
  | .ethFrame e _ => e < 8
  | .ethUp e => e < 8
  | .ethDown e _ _ _ _ => e < 8
  | .xcvTxFir g lane _ _ => g < 4 && lane < 4
  | .sync .. => true
  | .followUp .. => true
  | .announce .. => true
  | .delayResp .. => true
  | .pdelayReq .. => true
  | .pdelayResp .. => true
  | .delayReqSend .. => true
  | .announceTmo => true
  | .ppsIn .. => true
  | .ptpSetGo .. => true
  | .ptpTimeNs .. => true
  | .dmaCDb k _ _ => k < 32
  | .dmaCGo k _ _ => k < 32
  | .descriptorRead k words => k < 32 && words.length = 16
  | .descriptorComplete k _ => k < 32
  | .hostReadFail k _ => k < 32
  | .dmaCEnClear k _ => k < 32
  | .dmaCtlEnClear .. => true
  | .dmaCRst k _ => k < 32
  | .resume k _ => k < 32
  | .requestNop r => r.w < 4
  | .fence r _ => r.w < 4
  | .streamStart r => r.w < 4
  | .streamStop r => r.w < 4
  | .keyPicture r => r.w < 4
  | .setRate r => r.w < 4
  | .retire r => r.w < 4
  | .repair r => r.w < 4
  | .retrain r => r.w < 4
  | .power r => r.w < 4
  | .operatingPoint r => r.w < 4
  | .setTick r => r.w < 4
  | .queueReset r => r.w < 4
  | .patchSubmit r => r.w < 4
  | .restart r => r.w < 4
  | .faultExport r => r.w < 4
  | .faultClear r => r.w < 4
  | .seqMail r => r.w < 4
  | .hstWSeqans w _ => w < 4
  | .seqMailTimeout w => w < 4
  | .hstAccErr .. => true
  | .icClaim target _ _ => target < 4
  | .icComplete target _ _ _ => target < 4
  | .icPendSet n _ _ => n < 8
  | .msixDelivery .. => true
  | .mspiWrite _ _ bits => bits < 32
  | .mspiRead .. => true
  | .pcieReset => true
  | .bar2Access .. => true
  | .pairLoRead .. => true
  | .pairHiWrite .. => true
  | .rcRead .. => true
  | .registerWrite _ _ words => words.all fun w => w.1 < 16
  | .keyreqN .. => true
  | .faultReport .. => true
  | .selfTestDone _ res => res < 3
  | .testTimeout => true
  | .autoRepair => true
  | .repairDone .. => true
  | .logAppend => true
  | .faultInject .. => true
  | .fltStatClear .. => true
  | .drainEnd d => d < 22
  | .drainTimeout d => d < 22
  | .transDone d => d < 22
  | .avsLoop .. => true
  | .sensorRead readings => readings.length ≤ 12
  | .thermalLoop => true
  | .odTimeout => true
  | .wearBin => true
  | .pllUnlock n => n < 9
  | .pllRelock n => n < 9
  | .xtalLost => true
  | .reservedBlockType k _ => linkOk k
  | .busMasterEnableClear => true
  | .fenceRequestTimeout w => w < 4
  | .flashOpDone .. => true
  | .dmaBusyClear k => k < 32
  | .xtalReturn => true
  | .supplyReturn .. => true

/-- The operands of a microword that its word does not hold are those that `encodeMicro` cannot tell: 0, and `good`. -/
def Instr.bare : Instr → Bool
  | .ld _ _ _ ecc => ecc = .good
  | .rdreg _ _ _ cyc => cyc = 0
  | .wrreg _ _ _ cyc => cyc = 0
  | .wait _ _ _ t => t = 0
  | .sleep _ _ t => t = 0
  | .fenceWr _ _ t => t = 0
  | .fenceRw _ _ t => t = 0
  | .fenceHost _ _ t => t = 0
  | .fenceEng _ _ cyc => cyc = 0
  | .powerOn | .resetN .. | .supplyLow .. | .boot .. | .regs .. | .ucode .. | .sched .. | .dmem .. | .patch ..
  | .repairRecord .. | .start .. | .info .. | .endRecord | .volt .. | .pll .. | .clksel .. | .startPower .. | .train ..
  | .startWait .. | .read .. | .program .. | .erase4k .. | .erase64k .. | .bootRestart .. | .tickInEdge ..
  | .ptpTickInstant .. | .timerTick .. | .tickHoldover .. | .holdoverTick .. | .liveOverrun .. | .boundary .. | .nop
  | .stepEnd | .tickEnd | .halt | .ldi .. | .ldhi .. | .add .. | .sub .. | .and .. | .or .. | .xor .. | .shl .. | .shr ..
  | .sar .. | .cmp .. | .st .. | .br .. | .call .. | .ret | .evtSet .. | .waitTimeout .. | .sleepEnd .. | .fenceDone ..
  | .fenceTimeout .. | .budget .. | .tickno .. | .fctBand .. | .fctMove .. | .fctClose .. | .fctDec .. | .fctAbort ..
  | .codPic .. | .codRow .. | .outPic .. | .qMark .. | .qRewind .. | .qRelease .. | .qNote .. | .dmaGo .. | .bcSend ..
  | .fltReport .. | .codAbort .. | .pwrReq .. | .illegal | .csReload .. | .scrub .. | .signalDetect .. | .cdrLock ..
  | .blockLock .. | .eqSearchDone .. | .trainingTimeout .. | .failedRetrain .. | .eqAdapt .. | .lockLoss ..
  | .dataPosition .. | .idle .. | .deskew .. | .pictureStart .. | .timecode .. | .metadata .. | .rowStart ..
  | .pictureEnd .. | .remapAck .. | .lostControlBlock .. | .remapRefused .. | .wake .. | .rowDecision .. | .bandFinal ..
  | .bandMoved .. | .cbrRowDecision .. | .codecPictureDone .. | .part .. | .pictureCloseTimeout .. | .bandsDecoded ..
  | .nalUnit .. | .auCloseTimeout .. | .keyRetry .. | .packetStart .. | .enqueue .. | .eop .. | .noticeIssue ..
  | .noticeTake .. | .rdataRead .. | .mark .. | .producerRewind .. | .consumerRewind .. | .release .. | .qReset ..
  | .chainWalkDone .. | .fabricReset .. | .headRefill .. | .allocate .. | .free .. | .cacheRefill .. | .bpHAlloc ..
  | .bpHFree .. | .bpPMinfree .. | .dramRequest .. | .rowBatch .. | .writeBatch .. | .refresh .. | .mr4Poll ..
  | .powerDownEntry .. | .selfRefreshEntry .. | .patrolScrub .. | .wck2dqOsc .. | .zqLatch .. | .evacuationDone ..
  | .channelRepair .. | .returnDone .. | .unitChoice .. | .wheelSlot .. | .gateWindow .. | .gateEntry .. | .commit ..
  | .cancel .. | .listSwap .. | .pkt .. | .ack .. | .nak .. | .replayTmo .. | .credit .. | .creditSend .. | .trainBlock ..
  | .ferryTimeout .. | .keyReq .. | .ethFrame .. | .ethUp .. | .ethDown .. | .xcvTxFir .. | .sync .. | .followUp ..
  | .announce .. | .delayResp .. | .pdelayReq .. | .pdelayResp .. | .delayReqSend .. | .announceTmo | .ppsIn ..
  | .ptpSetGo .. | .ptpTimeNs .. | .dmaCDb .. | .dmaCGo .. | .descriptorRead .. | .descriptorComplete .. | .hostReadFail ..
  | .dmaCEnClear .. | .dmaCtlEnClear .. | .dmaCRst .. | .resume .. | .requestNop .. | .fence .. | .streamStart ..
  | .streamStop .. | .keyPicture .. | .setRate .. | .retire .. | .repair .. | .retrain .. | .power .. | .operatingPoint ..
  | .setTick .. | .queueReset .. | .patchSubmit .. | .restart .. | .faultExport .. | .faultClear .. | .seqMail ..
  | .hstWSeqans .. | .seqMailTimeout .. | .hstAccErr .. | .icClaim .. | .icComplete .. | .icPendSet .. | .msixDelivery ..
  | .mspiWrite .. | .mspiRead .. | .pcieReset | .bar2Access .. | .pairLoRead .. | .pairHiWrite .. | .rcRead ..
  | .registerWrite .. | .keyreqN .. | .faultReport .. | .selfTestDone .. | .testTimeout | .autoRepair | .repairDone ..
  | .logAppend | .faultInject .. | .fltStatClear .. | .drainEnd .. | .drainTimeout .. | .transDone .. | .avsLoop ..
  | .sensorRead .. | .thermalLoop | .odTimeout | .wearBin | .pllUnlock .. | .pllRelock .. | .xtalLost
  | .reservedBlockType .. | .busMasterEnableClear | .fenceRequestTimeout .. | .flashOpDone .. | .dmaBusyClear ..
  | .xtalReturn | .supplyReturn .. => true

end Sys2Proof
end

