-- ==== Sys2Proof/Safety.lean ====
section
/-! DEFINITION. What a safe run of the block is: no step of it stops. And the terms in which statements speak of a command:
that it completes, that a list executes a microword, and that nothing waits which would follow on a command. -/

namespace Sys2Proof.Machine

/-- A safe run of k steps: every step answers a next state. -/
def SafeRun : Nat → State → Prop
  | 0, _ => True
  | k + 1, s => ∃ t, step s = .next t ∧ SafeRun k t

/-- The command completes: it answers a next state, and P holds of that state. -/
def Completes (c : Instr) (s : State) (P : State → Prop) : Prop := ∃ t, exec c s = .next t ∧ P t

/-- The command completes, and P holds of the state that its own effect makes; what follows every command follows on that state
(`State.finish`). -/
def Makes (c : Instr) (s : State) (P : State → Prop) : Prop := ∃ u, exec c s = .next (s.finish u) ∧ P u

/-- No window waits for a fence (R381). -/
def State.noFence (s : State) : Bool := s.win.all fun (x : Nat × Window) => match x.2.wait with
  | .fence _ _ _ => false
  | _ => true

/-- No drain of a queue's tail store waits for a buffer of pool P2 (R237). -/
def State.noDrain (s : State) : Bool := s.qf.all fun (x : Nat × Queue) => !x.2.drainWait

/-- Nothing waits that would follow on a command: no report for the collector (R449), no host fence (R381), and no drain (R237). -/
def State.calm (s : State) : Bool := s.flt.bufs = [] && s.noFence && s.noDrain

/-- The sequencer runs list l, whose PC names the microword i, which the list's state does not make illegal (R197, R206). -/
abbrev Runs (s : State) (l : Nat) (i : Instr) : Prop := s.seq.cur = some l ∧ s.wordAt l = some i ∧ s.misuse l i = false

/-- t is s but for the sequencer, the interrupt lines with their messages (a FENCE_HOST before them included, R37) and the pending
bits of MSI-X: every other piece of state, every byte of a memory and every other register is as it was. -/
def OnlySeq (s t : State) : Prop :=
  t = { s with seq := t.seq, ic := t.ic, regs := t.regs, sent := t.sent, hostOpen := t.hostOpen } ∧
    ∀ a, (∀ v < 2, a ≠ Adr.MSIX_PBA v) → t.reg a = s.reg a

/-- The same, and of the sequencer nothing but list l and the cycle counts has changed. -/
def OnlyList (s t : State) (l : Nat) : Prop :=
  OnlySeq s t ∧ t.seq.cur = s.seq.cur ∧ ∀ m, m ≠ l → t.sl m = s.sl m

/-- u is s but for the sequencer, and of its lists none but l has changed. -/
def OnlySl (s u : State) (l : Nat) : Prop := u = { s with seq := u.seq } ∧ u.seq.cur = s.seq.cur ∧ ∀ m, m ≠ l → u.sl m = s.sl m

/-- t is s but for the registers at the addresses A. -/
def OnlyRegs (s t : State) (A : List Nat) : Prop := t = { s with regs := t.regs } ∧ ∀ a, a ∉ A → t.reg a = s.reg a

/-- A run ends within its limit (R197, R199): 64 cycles for LIVE, SEQ_STEP_MAX for the others. -/
abbrev State.runFits (s : State) (l n : Nat) : Prop :=
  s.seq.run + n ≤ if s.listClass l = 0 then 64 else s.fld Adr.SEQ_STEP_MAX 0 11

/-- A unit command of list l has answered DONE with a value: FAIL = 0, and GD holds it above the code (R205). -/
def Answers (u : State) (l : Nat) (gd : Reg) (v : Nat) : Prop :=
  (u.sl l).fail = false ∧ ∃ y : SList, (u.sl l).g = (y.setG gd (BitVec.ofNat 32 (256 * (v % 2 ^ 24)))).g

/-- A counter register that saturates at 0xFFFFFFFF counts one more. -/
abbrev Counted (s u : State) (a : Nat) : Prop := u.reg a = BitVec.ofNat 32 (sat 0xFFFFFFFF ((s.reg a).toNat + 1))

/-- The buffer of block b has room for a report (R449). -/
abbrev State.roomAt (s : State) (b : Nat) : Prop := (tget [] s.flt.bufs b).length < 4

/-- The report that block b made last has this code, kind and unit (R447). -/
abbrev Reported (u : State) (b code kind unit : Nat) : Prop :=
  ((tget [] u.flt.bufs b).getLast?.map fun r => (r.code, r.kind, r.unit)) = some (code, kind, unit)

/-- A read over an interface reaches the register at an offset (R9, R14, R399). -/
abbrev State.readable (s : State) (a : Nat) : Prop := s.gate false a = Code.done

/-- A write over an interface reaches the register at an offset, and no rule of that register discards it (R8, R9, R13, R14, R399). -/
abbrev State.writable (s : State) (f : Iface) (a : Nat) (v : Word) : Prop :=
  s.gate false a = Code.done ∧ s.badWrite f false a v = Code.done

/-- What a control position gives a group that is up: the block that rules, and the state that it acts on, in which the position's
headers and copies that differ have been counted (R46, R51). -/
def State.controlAt (s : State) (g : Nat) (blks : List LaneBlock) : Option (BitVec 64 × State) :=
  match s.ctlCopies g blks with
  | [] => none
  | d :: r => some (d, if r.any (· ≠ d) then (s.heads g blks).bump (Adr.LND_CNT_CTLERR g) else s.heads g blks)

/-- What the last read over an interface returned: one word. -/
abbrev Returned (u : State) (f : Iface) (v : Word) : Prop := tget? u.rd (ifIdx f) = some [v]

/-- The fabric has answered DONE with a value. -/
abbrev FabDone (u : State) (v : Nat) : Prop := tget? u.rd 3 = some [BitVec.ofNat 32 Code.done, BitVec.ofNat 32 v]

/-- A queue at rest: no packet is open or waits, no producer is stalled, and none of its words lies in DRAM. -/
def Queue.resting (x : Queue) : Bool :=
  x.lock.isNone && x.waiters = [] && x.held = [] && x.backlog = [] && x.stall.isNone && x.chain = [] && !x.walk

/-- The requests of the table of R381, each with its opcode. -/
def requestOps (r : Req) : List (Instr × Nat) :=
  [(.requestNop r, 0x00), (.fence r false, 0x01), (.streamStart r, 0x10), (.streamStop r, 0x11), (.keyPicture r, 0x12), (.setRate r, 0x13),
    (.retire r, 0x20), (.repair r, 0x21), (.retrain r, 0x22), (.power r, 0x30), (.operatingPoint r, 0x31), (.setTick r, 0x40),
    (.queueReset r, 0x41), (.patchSubmit r, 0x50), (.restart r, 0x51), (.faultExport r, 0x60), (.faultClear r, 0x61), (.seqMail r, 0x70)]

/-- A window takes a request (R378): boot has completed, the window is fitted and holds none, its domain is up, and no answer
packet is asked for. -/
abbrev State.takesRequest (s : State) (r : Req) : Prop :=
  s.boot.done = true ∧ s.domUp 2 = true ∧ r.w < 4 ∧ s.winBusy r.w = false ∧ s.flag (Adr.HST_W_CTL r.w) 1 = false

/-- A request stands in its window and is about to be checked: its record, its TAG, and BUSY (R378). -/
def State.asked (s : State) (op : Nat) (r : Req) : State :=
  let s := iter (recordWords op r).zipIdx (fun (x : Word × Nat) s => s.setReg (Adr.HST_W_REQ r.w x.2) x.1) s
  ({ s with win := tput s.win r.w ⟨r.tag % 256, .tick⟩ } : State).setFld (Adr.HST_W_RESP r.w) 16 1 1

/-- The request of a window has been answered (R378 step 6): its code and TAG, BUSY and PEND clear, DONE, ANS0. -/
abbrev Answered (u : State) (w code tag ans0 : Nat) : Prop :=
  u.reg (Adr.HST_W_RESP w) = BitVec.ofNat 32 (code + 256 * (tag % 256)) ∧ u.reg (Adr.HST_W_DONE w) = 1 ∧
    u.reg (Adr.HST_W_ANS w 0) = BitVec.ofNat 32 ans0 ∧ u.winBusy w = false

/-- The interrupt lines are right (R389, R391): each is asserted exactly while a source qualifies for it, and a pending bit of
MSI-X is set only while a line routed to its vector is asserted. -/
def State.linesRight (s : State) : Prop :=
  s.ic.lines = linesNow s ∧ ∀ v < 64, s.flag (Adr.MSIX_PBA (v / 32)) (v % 32) = true → ∃ l ∈ s.linesOf v, s.ic.lines.getLsbD l = true

end Sys2Proof.Machine
end

