-- ==== Sys2Proof/Certificates/Slice0/Obligations.lean ====
section
/-! DEFINITION. The statements about the model. -/

open Sys2Proof Sys2Proof.Machine

/-- A step takes the command at the front of the queue and executes it with the queue's rest; on an empty queue the block idles, which
is the model's choice (log 1). -/
def Obligations.StepTakesFront : Prop :=
  (∀ (c : Instr) (rest : List Instr) (s : State), s.pending = c :: rest → step s = exec c { s with pending := rest }) ∧
  ∀ s : State, s.pending = [] → step s = .next s

/-- The microwords that compute in registers (R204): GD takes the result, PC the next word, one cycle counts, and nothing else
changes; G0 discards it (R202). Where nothing waits that would follow on the command, the interrupt lines and their messages alone
follow it. What it takes from a reading of the spec is the model's choice (log 33). -/
def Obligations.AluWords : Prop :=
  ∀ (s : State) (l : Nat) (gd ga gb : Reg) (imm : Nat),
    let x := s.sl l
    let a := x.gr ga
    let b := x.gr gb
    let gives (i : Instr) (y : SList) : Prop := Runs s l i →
      (Makes i s fun u => u.sl l = y ∧ OnlySl s u l) ∧
      (s.calm = true → Completes i s fun t => t.sl l = y ∧ OnlyList s t l)
    gives .nop (x.stepped 1) ∧
    gives (.ldi gd imm) ((x.stepped 1).setG gd (BitVec.ofNat 32 imm)) ∧
    gives (.ldhi gd imm) ((x.stepped 1).setG gd (BitVec.ofNat 32 (imm * 65536 + (x.gr gd).toNat % 65536))) ∧
    gives (.add gd ga gb imm) ((x.stepped 1).setG gd (a + b + simm imm)) ∧
    gives (.sub gd ga gb imm) ((x.stepped 1).setG gd (a - b - simm imm)) ∧
    gives (.and gd ga gb) ((x.stepped 1).setG gd (a &&& b)) ∧
    gives (.or gd ga gb) ((x.stepped 1).setG gd (a ||| b)) ∧
    gives (.xor gd ga gb) ((x.stepped 1).setG gd (a ^^^ b)) ∧
    gives (.shl gd ga imm) ((x.stepped 1).setG gd (a <<< (imm % 32))) ∧
    gives (.shr gd ga imm) ((x.stepped 1).setG gd (a >>> (imm % 32))) ∧
    gives (.sar gd ga imm) ((x.stepped 1).setG gd (a.sshiftRight (imm % 32))) ∧
    gives (.cmp ga gb imm)
      { x.stepped 1 with
        z := a - (b + simm imm) = 0, n := (a - (b + simm imm)).msb, c := a.ult (b + simm imm) }

/-- The branches, calls and returns (R203, R204): PC goes to the target where the condition holds; CALL pushes the address of the
next word, RET pops it. What it takes from a reading of the spec is the model's choice (log 33). -/
def Obligations.FlowWords : Prop :=
  ∀ (s : State) (l : Nat) (c : Cond) (target : Nat),
    let x := s.sl l
    let gives (i : Instr) (y : SList) : Prop := Runs s l i →
      (Makes i s fun u => u.sl l = y ∧ OnlySl s u l) ∧
      (s.calm = true → Completes i s fun t => t.sl l = y ∧ OnlyList s t l)
    gives (.br c target) (if x.holds c then { x.stepped 1 with pc := target } else x.stepped 1) ∧
    gives (.call c target)
      (if x.holds c then { x.stepped 1 with pc := target, stack := (x.pc + 1) % 65536 :: x.stack } else x.stepped 1) ∧
    ∀ a rest, x.stack = a :: rest → gives .ret { x.stepped 1 with pc := a, stack := rest }

/-- The words that read or write data memory, events and counts (R204, R211): LD and ST with a sound or corrected word, EVT_SET,
BUDGET and TICKNO. A corrected word is counted and raises its event (R218). What it takes from a reading of the spec is the
model's choice (log 33). -/
def Obligations.DataWords : Prop :=
  ∀ (s : State) (l : Nat) (gd ga gb : Reg) (imm : Nat),
    let x := s.sl l
    let word := Adr.SEQ_DMEM (dmemIndex (x.gr ga) imm)
    let gives (i : Instr) (y : SList) : Prop := Runs s l i →
      (Makes i s fun u => u.sl l = y ∧ OnlySl s u l) ∧
      (s.calm = true → Completes i s fun t => t.sl l = y ∧ OnlyList s t l)
    gives (.ld gd ga imm .good) ((x.stepped 2).setG gd (s.z word)) ∧
    (Runs s l (.ld gd ga imm .good) →
      (Makes (.ld gd ga imm .single) s fun u => u.sl l = (x.stepped 2).setG gd (s.z word) ∧
        Counted s u Adr.SEQ_CNT_CORR ∧ u.reg Adr.SEQ_EVT = s.reg Adr.SEQ_EVT ||| 4 ∧
        u = { s with seq := u.seq, regs := u.regs } ∧
        ∀ a, a ≠ Adr.SEQ_CNT_CORR → a ≠ Adr.SEQ_EVT → u.reg a = s.reg a) ∧
      (s.calm = true → Completes (.ld gd ga imm .single) s fun t => t.sl l = (x.stepped 2).setG gd (s.z word) ∧
        Counted s t Adr.SEQ_CNT_CORR ∧ t.reg Adr.SEQ_EVT = s.reg Adr.SEQ_EVT ||| 4)) ∧
    (Runs s l (.st ga gb imm) →
      (Makes (.st ga gb imm) s fun u => u.sl l = x.stepped 2 ∧ u.reg word = x.gr gb ∧
        u = { s with seq := u.seq, regs := u.regs } ∧ ∀ a, a ≠ word → u.reg a = s.reg a) ∧
      (s.calm = true → Completes (.st ga gb imm) s fun t => t.sl l = x.stepped 2 ∧ t.reg word = x.gr gb ∧
        t.dram = s.dram ∧ ∀ a, a ≠ word → (∀ v < 2, a ≠ Adr.MSIX_PBA v) → t.reg a = s.reg a)) ∧
    gives (.budget gd) ((x.stepped 1).setG gd
      (if s.listBudget l = 0 then 0x7FFFFFFF else BitVec.ofInt 32 ((s.listBudget l : Int) - (x.used : Int)))) ∧
    gives (.tickno gd imm) ((x.stepped 1).setG gd
      (BitVec.ofNat 32 (if imm = 1 then s.clk.count / 2 ^ 32 else s.clk.count % 2 ^ 32))) ∧
    ∀ ev, 0xF0 ≤ ev → ev ≤ 0xFF → Runs s l (.evtSet ev) →
      let counts (t : State) : Prop := t.sl l = x.stepped 1 ∧ tget 0 t.evts ev = sat 65535 (tget 0 s.evts ev + 1) ∧
        ∀ e, e ≠ ev → tget 0 t.evts e = tget 0 s.evts e
      (Makes (.evtSet ev) s fun u => counts u ∧ u = { s with seq := u.seq, evts := u.evts }) ∧
      (s.calm = true → Completes (.evtSet ev) s counts)

/-- Every command completes, whatever the state, and it keeps the fuses and the commands that wait (R3). What follows a command's own
effect (R381, R391, R449) is, where no report, no host fence and no drain of a queue waits, the interrupt lines alone with their
messages, a FENCE_HOST before them included (R37), and the pending bits of MSI-X. -/
def Obligations.EveryCommandCompletes : Prop :=
  (∀ (c : Instr) (s : State), ∃ t, exec c s = .next t ∧ t.fuse = s.fuse ∧ t.pending = s.pending) ∧
  ∀ s u : State,
    (s.finish u).fuse = s.fuse ∧ (s.finish u).pending = s.pending ∧
    (u.calm = true → s.finish u = { u with
        fuse := s.fuse, pending := s.pending, ic := (s.finish u).ic, regs := (s.finish u).regs, sent := (s.finish u).sent,
        hostOpen := (s.finish u).hostOpen } ∧
      u.sent <+: (s.finish u).sent ∧
      ∀ a, (∀ v < 2, a ≠ Adr.MSIX_PBA v) → tget? (s.finish u).regs a = tget? u.regs a)

/-- The words that read and write a register of BAR0 (R207), where the access reaches the control store or the data memory: GD takes
the word read, a written word of data memory holds GB, and FAIL reads 0. What it takes from a reading of the spec is the model's
choice (log 33). -/
def Obligations.RegisterWords : Prop :=
  ∀ (s : State) (l cyc : Nat) (gd ga gb : Reg) (imm : Nat),
    let x := s.sl l
    let a := regAddr (x.gr ga) imm
    s.gate false a = Code.done →
    (Runs s l (.rdreg gd ga imm 0) → 0xA0000 ≤ a → a < 0x100000 →
      let y : SList := { (x.stepped (min 48 cyc)).setG gd (s.reg a) with fail := false }
      (Makes (.rdreg gd ga imm cyc) s fun u => u.sl l = y ∧ OnlySl s u l) ∧
      (s.calm = true → Completes (.rdreg gd ga imm cyc) s fun t => t.sl l = y ∧ OnlyList s t l)) ∧
    (Runs s l (.wrreg ga gb imm 0) → 0xA0000 ≤ a → a < 0xB0000 →
      let y : SList := { x.stepped (min 48 cyc) with fail := false }
      (Makes (.wrreg ga gb imm cyc) s fun u => u.reg a = x.gr gb ∧ u.sl l = y ∧ ∀ b, b ≠ a → u.reg b = s.reg b) ∧
      (s.calm = true → Completes (.wrreg ga gb imm cyc) s fun t => t.reg a = x.gr gb ∧ t.sl l = y ∧
        ∀ b, b ≠ a → (∀ v < 2, b ≠ Adr.MSIX_PBA v) → t.reg b = s.reg b))

/-- The words that suspend a list (R210, R212): the run ends, the list is in WAIT, and it waits for its event or fence until an
instant or for a number of its own ticks. FENCE_ENG goes on once no engine that it names has work, and answers the mask of those
that are off or retired. What it takes from a reading of the spec is the model's choice (log 33). -/
def Obligations.SuspendWords : Prop :=
  (∀ (s : State) (l ev unit count now : Nat),
    let until_ : Until := if unit = 3 then .ticks count
      else .at_ (max s.clk.now now + count * (if unit = 0 then 20 else if unit = 1 then 1000 else 1000000))
    let waits (i j : Instr) (k : Susp) : Prop := Runs s l i → s.runFits l 1 → Makes j s fun u =>
      (u.sl l).st = 3 ∧ (u.sl l).susp = some (k, until_) ∧ (u.sl l).past = none ∧
      (u.sl l).pc = ((s.sl l).pc + 1) % 65536 ∧ (u.sl l).g = (s.sl l).g ∧ u.seq.cur = none ∧ u.dram = s.dram ∧ u.qf = s.qf
    waits (.wait ev unit count 0) (.wait ev unit count now) (.event ev) ∧
    waits (.sleep unit count 0) (.sleep unit count now) .sleep ∧
    waits (.fenceWr unit count 0) (.fenceWr unit count now) (.fence 0) ∧
    waits (.fenceRw unit count 0) (.fenceRw unit count now) (.fence 1) ∧
    waits (.fenceHost unit count 0) (.fenceHost unit count now) (.fence 3)) ∧
  ∀ (s : State) (l cyc : Nat) (gd : Reg) (imm : Nat),
    let mask := BitVec.ofNat 32 (imm % 128)
    let n := min (40 * ((List.range 7).filter fun e => bit mask e).length) cyc
    (s.fenceIdle mask = false → Makes (.fenceEng gd imm cyc) s fun u => u = s) ∧
    (s.fenceIdle mask = true → Runs s l (.fenceEng gd imm 0) → Makes (.fenceEng gd imm cyc) s fun u =>
      u.sl l = { ((s.sl l).stepped n).setG gd (BitVec.ofNat 32 ((s.fenceAns mask).1 + 256 * (s.fenceAns mask).2)) with
        fail := (s.fenceAns mask).1 ≠ Code.done } ∧ u = { s with seq := u.seq })

/-- The ends of waits (R210, R212): a list in WAIT becomes READY with T = 1 where the time of a WAIT or a fence passes, and with
T = 0 where a SLEEP's passes; where the fence completes it resumes with T = 0, and a FENCE_HOST has then confirmed the writes to
host memory (R38). A timeout is counted. -/
def Obligations.WaitEnds : Prop :=
  ∀ (s : State) (l n : Nat) (w : Until),
    let x := s.sl l
    let ends (k : Susp) (i : Instr) (t : Bool) : Prop :=
      x.st = 3 → x.susp = some (k, w) → s.seq.cur = none → s.passed w = true → Makes i s fun u =>
        u.sl l = { x with st := 1, t := t, susp := none, past := some t } ∧ OnlySeq s { u with regs := s.regs } ∧
        (t = true → Counted s u Adr.SEQ_CNT_TMO)
    (∀ ev, tget 0 s.evts ev = 0 → ends (.event ev) (.waitTimeout l) true) ∧
    ends .sleep (.sleepEnd l) false ∧
    ends (.fence n) (.fenceTimeout l) true ∧
    (x.st = 3 → x.susp = some (.fence n, w) → Makes (.fenceDone l) s fun u =>
      u.sl l = { x with st := 1, susp := none, past := some false } ∧
        OnlySl { s with hostOpen := if n = 3 then none else s.hostOpen } u l)

/-- The words that end a step or a list (R197, R204, R213): STEP_END goes to the next step entry, READY where its TRIG is 0; at the
last step, and at TICK_END, the list is DONE where it owes no tick; HALT stops the list and clears the enables of its stream's
lists; an illegal word halts the list, whose stream stops at the next tick (R206). What it takes from a reading of the spec is
the model's choice (log 33). -/
def Obligations.EndWords : Prop :=
  (∀ (s : State) (l : Nat),
    let x := s.sl l
    let next := x.step + 1
    (Runs s l .stepEnd → s.runFits l 1 → x.abort = false → x.step < s.listLast l → s.stepTrig next = 0 →
      Makes .stepEnd s fun u => u.seq.cur = none ∧ (u.sl l).st = 1 ∧ (u.sl l).step = next ∧ (u.sl l).pc = s.stepEntry next ∧
        (u.sl l).enter = true ∧ (u.sl l).g = x.g) ∧
    (Runs s l .stepEnd → s.runFits l 1 → x.abort = false → s.listLast l ≤ x.step → x.owed = 0 →
      Makes .stepEnd s fun u => u.seq.cur = none ∧ (u.sl l).st = 4 ∧ (u.sl l).g = x.g) ∧
    (Runs s l .tickEnd → s.runFits l 1 → x.abort = false → x.owed = 0 →
      Makes .tickEnd s fun u => u.seq.cur = none ∧ (u.sl l).st = 4 ∧ (u.sl l).g = x.g) ∧
    (Runs s l .halt → s.runFits l 1 → s.listKind l = 3 →
      Makes .halt s fun u => u.seq.cur = none ∧ (u.sl l).st = 5 ∧ u.fld (Adr.SEQ_L_CTL l) 0 1 = 0) ∧
    (Runs s l .halt → s.runFits l 1 → s.listKind l ≠ 3 →
      Makes .halt s fun u => u.seq.cur = none ∧ (u.sl l).st = 5 ∧
        ∀ m ∈ s.boundLists (s.listKind l) (s.listNum l), u.fld (Adr.SEQ_L_CTL m) 0 1 = 0)) ∧
  ∀ (s : State) (l : Nat), s.seq.cur = some l → s.runFits l 0 → l < 128 →
    (∀ i, s.wordAt l = some i → s.misuse l i = true) →
    Makes .illegal s fun u => u.seq.cur = none ∧ (u.sl l).st = 5 ∧ (u.sl l).g = (s.sl l).g ∧ u.seq.stops = s.seq.stops ++ [l] ∧
      u.reg Adr.SEQ_LAST_ERR = BitVec.ofNat 32 ((s.sl l).pc % 65536 + 65536 * l) ∧ bit (u.reg Adr.SEQ_EVT) 5 = true

/-- The unit commands over queues (R204, R504): Q_MARK answers the low 24 bits of TAIL and, with IMM14[0], sets the list's picture
Clasp; Q_REWIND and Q_RELEASE move TAIL and REL of a queue at rest to the position that GB names; Q_NOTE sends one packet of 16
bytes as the sequencer. What it takes from a reading of the spec is the model's choice (log 33). -/
def Obligations.QueueWords : Prop :=
  ∀ (s : State) (l : Nat) (gd ga gb : Reg) (imm : Nat),
    let q := ((s.sl l).gr ga).toNat
    let x := s.queue q
    let at_ := x.posOf ((s.sl l).gr gb).toNat imm
    s.domRuns 2 = true → s.qRefuse q = none →
    (Runs s l (.qMark gd ga gb imm) → Makes (.qMark gd ga gb imm) s fun u => Answers u l gd x.tail ∧ u.qf = s.qf ∧
      (u.sl l).clasp = if imm % 2 = 1 then some (q, x.tail) else (s.sl l).clasp) ∧
    (∀ c, Runs s l (.qRewind gd ga gb imm) → at_ = some c → x.resting = true → x.pkts = [] → x.rel ≤ c → c ≤ x.tail →
      Makes (.qRewind gd ga gb imm) s fun u => Answers u l gd 0 ∧ (u.queue q).tail = c ∧ (u.queue q).rel = x.rel ∧
        (u.queue q).read = x.read ∧ ∀ r, r ≠ q → u.queue r = s.queue r) ∧
    (∀ c, Runs s l (.qRelease gd ga gb imm) → at_ = some c → x.resting = true → x.rel ≤ c → c ≤ x.read →
      Makes (.qRelease gd ga gb imm) s fun u => Answers u l gd 0 ∧ (u.queue q).rel = c ∧ (u.queue q).tail = x.tail ∧
        (u.queue q).read = x.read ∧ ∀ r, r ≠ q → u.queue r = s.queue r) ∧
    (Runs s l (.qNote gd ga gb imm) → 8 ≤ q → x.resting = true → x.pkts = [] → x.tail % 32 = 0 → s.qLimit q = 0 →
      x.tail / 32 < x.base + 2 ^ 26 → x.words.length < s.qHead q → s.qNoSpill q = true →
      Makes (.qNote gd ga gb imm) s fun u => Answers u l gd 0 ∧ (u.queue q).tail = x.tail + 32 ∧
        (u.queue q).pkts = [⟨0, x.tail, 16, 0, x.tail + 32, none, s.strictFence .none, false, false, false, false, 0, 0⟩])

/-- The unit commands over Facet engines (R204, R215, R216, R174, R109), where their operands name work that is ready for them:
FCT_BAND and FCT_DEC hand a band to the engine of a slot, and FCT_BAND answers its number; FCT_MOVE orders the next band in turn moved;
FCT_CLOSE ends the picture; FCT_ABORT answers the band that was in progress. What it takes from a reading of the spec is the
model's choice (log 17 and 18). -/
def Obligations.FacetWords : Prop :=
  ∀ (s : State) (l : Nat) (gd ga gb : Reg) (imm : Nat),
    let a := ((s.sl l).gr ga).toNat
    let b := ((s.sl l).gr gb).toNat
    (∀ p i, Runs s l (.fctBand gd ga gb imm) → s.picOf a = some p → s.pic? p.stream p.ord = some p →
      b < (s.lay p.stream).nb → (if imm % 2 = 1 then s.autoSlot p b else some (imm / 2 % 8)) = some i → i < s.active →
      let e := s.fct.slots.getD i 7
      s.isRetired e = false → (p.band b).st = .complete → s.domRuns (3 + e) = true → (s.eng e).work.isSome = true →
      Makes (.fctBand gd ga gb imm) s fun u => Answers u l gd e ∧
        (u.eng e).queue = (s.eng e).queue ++ [(p.stream, p.ord, b)] ∧ u.dram = s.dram ∧ u.qf = s.qf) ∧
    (∀ p, Runs s l (.fctMove gd ga gb imm) → s.picOf a = some p → s.pic? p.stream p.ord = some p →
      b < (s.lay p.stream).nb → p.nextMove = b → (p.band b).st = .final →
      Makes (.fctMove gd ga gb imm) s fun u => Answers u l gd 0 ∧
        (u.pic? p.stream p.ord).map (fun r => (r.band b).st) = some .moving ∧ u.dram = s.dram ∧ u.qf = s.qf) ∧
    (∀ p, Runs s l (.fctClose gd ga gb imm) → s.picOf a = some p → p.nextMove = (s.lay p.stream).nb →
      s.noQueue (s.fld (Adr.FCT_S_RQ p.stream) 0 12) = false →
      Makes (.fctClose gd ga gb imm) s fun u => Answers u l gd 0 ∧ (∀ r ∈ (u.fs p.stream).pics, r.ord ≠ p.ord) ∧
        u.reg (Adr.FCT_S_PICTURE p.stream) = BitVec.ofNat 32 p.number) ∧
    (∀ g i, Runs s l (.fctDec gd ga gb imm) → s.pEn (a % 4) = true → s.stgOf a = some g → b < s.stgBands (a % 4) g →
      s.active ≠ 0 → g.bands.contains b = false → g.out = some i →
      let e := s.fct.slots.getD (b % s.active) 7
      s.isRetired e = false → s.domRuns (3 + e) = true →
      Makes (.fctDec gd ga gb imm) s fun u => Answers u l gd 0 ∧ (u.eng e).dec = (s.eng e).dec ++ [(a % 4, g.ord, b)] ∧
        u.dram = s.dram ∧ u.qf = s.qf) ∧
    (∀ w, Runs s l (.fctAbort gd ga gb imm) → a < s.nFct → s.domRuns (3 + a) = true → (s.eng a).work = some w →
      (s.eng a).queue = [] →
      Makes (.fctAbort gd ga gb imm) s fun u => Answers u l gd w.n ∧ (u.eng a).work = none)

/-- The unit commands over codec contexts and outputs (R32, R145, R161, R168, R188, R204). COD_PIC takes or skips a picture; COD_ROW
makes a CTU row of the picture in progress, or of the next one, ready; COD_ABORT ends the picture; OUT_PIC takes the first picture
of the output ring, at most one on each of its stream's ticks. What it takes from a reading of the spec is the
model's choice (log 33). -/
def Obligations.CodecWords : Prop :=
  ∀ (s : State) (l : Nat) (gd ga gb : Reg) (imm : Nat),
    let c := ((s.sl l).gr ga).toNat
    let row := ((s.sl l).gr gb).toNat
    (Runs s l (.codPic gd ga gb imm) → s.cDec c = false → s.cRefuse c = none → imm / 2 % 2 = 1 →
      Makes (.codPic gd ga gb imm) s fun u => Answers u l gd 0 ∧ (u.cx c).gap = true ∧ (u.cx c).taken = (s.cx c).taken) ∧
    (Runs s l (.codPic gd ga gb imm) → s.cDec c = false → s.cRefuse c = none → imm / 2 % 2 = 0 → s.cHasSource c = true →
      s.cNoSource c = false →
      Makes (.codPic gd ga gb imm) s fun u => Answers u l gd 0 ∧ (u.cx c).taken = (s.cx c).taken + 1) ∧
    (Runs s l (.codRow gd ga gb imm) → s.cRefuse c = none → s.cClass c = 0 → s.cDec c = false → row < s.cRows c →
      Makes (.codRow gd ga gb imm) s fun u => Answers u l gd 0 ∧
        (if (s.cx c).work ≠ [] ∧ s.cRows c ≤ (s.cx c).rows then
          (u.cx c).rowsNext = max (s.cx c).rowsNext (row + 1) ∧ (u.cx c).rows = (s.cx c).rows
        else (u.cx c).rows = max (s.cx c).rows (row + 1) ∧ (u.cx c).rowsNext = (s.cx c).rowsNext)) ∧
    (Runs s l (.codAbort gd ga gb imm) → s.cEn c = true → ((s.cEngines c).all fun e => s.domRuns (8 + e)) = true →
      (s.cx c).work ≠ [] →
      Makes (.codAbort gd ga gb imm) s fun u => Answers u l gd 0 ∧ (u.cx c).gap = true) ∧
    (∀ o rest, let d : Out := ⟨c / 64 % 4 ≠ 0, c % 64⟩
      Runs s l (.outPic gd ga gb imm) → c < 128 → (if d.cod then s.cEn d.n && s.cDec d.n else s.pEn d.n) = true →
      (s.ring d).at_ < s.outTicks d → (s.ring d).list = o :: rest →
      Makes (.outPic gd ga gb imm) s fun u => Answers u l gd 0 ∧ (u.ring d).list = rest ∧ (u.ring d).last = some o ∧
        (u.ring d).at_ = s.outTicks d)

/-- The unit commands over the DMA, the back-channel, the fault collector and the power domains (R62, R204, R363, R428). What it
takes from a reading of the spec is the model's choice (log 33). -/
def Obligations.DeviceWords : Prop :=
  ∀ (s : State) (l : Nat) (gd ga gb : Reg) (imm : Nat),
    let a := ((s.sl l).gr ga).toNat
    let b := ((s.sl l).gr gb).toNat
    (Runs s l (.dmaGo gd ga gb imm) → s.domRuns 2 = true → a < s.nDma → s.dmaSeq a = true → s.fuse.m = false →
      (b % 65536 + 65536 - (s.dch_ a).head) % 65536 ≤ 2 ^ s.fld (Adr.DMA_C_RING_CFG a) 0 4 →
      Makes (.dmaGo gd ga gb imm) s fun u => Answers u l gd 0 ∧ u.dch_ a = { s.dch_ a with tail := b % 65536 } ∧
        u.dram = s.dram ∧ u.qf = s.qf) ∧
    (Runs s l (.dmaGo gd ga gb imm) → s.domRuns 2 = true → a < s.nDma → s.dmaSeq a = true → s.fuse.m = true →
      (s.dch_ a).shd = false → (s.dch_ a).cur.isSome = true →
      Makes (.dmaGo gd ga gb imm) s fun u => Answers u l gd 0 ∧ u.dch_ a = { s.dch_ a with shd := true } ∧
        u.dram = s.dram ∧ u.qf = s.qf) ∧
    (Runs s l (.bcSend gd ga gb imm) → a < s.nLnd → s.domRuns (14 + a) = true → 1 ≤ imm % 256 → imm % 256 ≤ 4 →
      s.flag (Adr.LND_BC_CTL a) 0 = true →
      let g := s.fld (Adr.LND_BC_CTL a) 1 2
      s.ferryUp g = true → (s.xg g).ctl.length < 16 →
      Makes (.bcSend gd ga gb imm) s fun u => Answers u l gd 0 ∧
        (u.xg g).ctl = (s.xg g).ctl ++
          [sensorMsg (imm % 256) (a + 4 * s.lgPos a) ((s.lg a).seq % 256) (b % 65536) s.clk.count] ∧
        (u.lg a).seq = ((s.lg a).seq + 1) % 256) ∧
    (Runs s l (.fltReport gd ga gb imm) → (tget [] s.flt.bufs 4).length < 4 →
      Makes (.fltReport gd ga gb imm) s fun u => Answers u l gd 0 ∧
        ((tget [] u.flt.bufs 4).getLast?.map fun r => (r.code, r.kind, r.arg)) = some (0x4000 + imm, 1, b)) ∧
    (Runs s l (.pwrReq gd ga gb imm) → s.powerCode a (pstate (b % 4)) = Code.done → b % 4 ≠ 3 →
      (s.domain a).phase = .stable → (s.domain a).st ≠ pstate (b % 4) →
      Makes (.pwrReq gd ga gb imm) s fun u => Answers u l gd 0 ∧ (u.domain a).target = pstate (b % 4) ∧
        (u.domain a).phase ≠ .stable ∧ (u.domain a).by_ = some .seq)

/-- BOUNDARY (R198, R209): with no tick and no wait to resolve, the list selected runs; a list that waited on an event takes one
occurrence of it, and its T is that of its wait. The soft errors that reads have corrected since the boundary before are counted
(R218). What it takes from a reading of the spec is the model's choice (log 33). -/
def Obligations.Boundary : Prop :=
  ∀ (s : State) (t soft l : Nat), s.boot.done = true → s.seq.cur = none → s.domUp 1 = true → s.clk.waiting = [] →
    s.seq.clear = [] → (∀ m, (s.sl m).st ≠ 3) → s.selectList = some l →
    let x := s.sl l
    Makes (.boundary t soft) s fun u => u.seq.cur = some l ∧ u.seq.run = 0 ∧
      u.sl l = { x with st := 2, t := x.past.getD x.t, susp := none, past := none, enter := false } ∧
      (∀ m, m ≠ l → u.sl m = s.sl m) ∧ u.dram = s.dram ∧
      u.reg Adr.SEQ_CNT_CORR = BitVec.ofNat 32 (sat 0xFFFFFFFF ((s.reg Adr.SEQ_CNT_CORR).toNat + soft)) ∧
      u.reg Adr.SEQ_EVT = (if soft = 0 then s.reg Adr.SEQ_EVT else s.reg Adr.SEQ_EVT ||| 4) ∧
      (∀ a, a ≠ Adr.SEQ_CNT_CORR → a ≠ Adr.SEQ_EVT → u.reg a = s.reg a) ∧
      ∀ e, tget 0 u.evts e = if s.waitsOn x = some e then tget 0 s.evts e - 1 else tget 0 s.evts e

/-- SCRUB and CS_RELOAD (R218, R219): a sound word is left; a corrected one is counted; an uncorrectable word of the control store
takes the value of its golden copy, which is counted and raises its event. What it takes from a reading of the spec is the
model's choice (log 33). -/
def Obligations.ControlStoreErrors : Prop :=
  ∀ (s : State) (a : Nat), s.boot.done = true → s.flag Adr.SEQ_SCRUB 8 = true →
    (Makes (.scrub a .good) s fun u => u = s) ∧
    (Makes (.scrub a .single) s fun u => OnlyRegs s u [Adr.SEQ_CNT_CORR, Adr.SEQ_EVT] ∧ Counted s u Adr.SEQ_CNT_CORR ∧
      u.reg Adr.SEQ_EVT = s.reg Adr.SEQ_EVT ||| 4) ∧
    (Makes (.scrub a .double) s fun u => u.reg (Adr.SEQ_CSTORE (a % 65536)) = s.goldWord (s.goldAddr 0 a) ∧
      Counted s u Adr.SEQ_CNT_RELOAD ∧ bit (u.reg Adr.SEQ_EVT) 3 = true ∧ u.dram = s.dram ∧ u.seq = s.seq) ∧
    (Makes (.csReload 0 a true false) s fun u => u.reg (Adr.SEQ_CSTORE (a % 65536)) = s.goldWord (s.goldAddr 0 a) ∧
      Counted s u Adr.SEQ_CNT_RELOAD ∧ bit (u.reg Adr.SEQ_EVT) 3 = true ∧
      u.reg Adr.SEQ_LAST_ERR = BitVec.ofNat 32 (a % 65536 + 2 ^ 24) ∧ u.dram = s.dram ∧ u.seq = s.seq)

/-- The tick (R17, R19, R20, R21, R26): an accepted edge, an instant of PTP time or of local time, and a tick of holdover count,
name the instant, raise TICK and wait for the sequencer. What it takes from a reading of the spec is the model's choice (log
32). -/
def Obligations.Ticks : Prop :=
  ∀ (s : State) (t : Nat), s.boot.done = true →
    let v := s.at_ t
    let next := match s.clk.lastTick with
      | none => 0
      | some _ => (s.clk.count + 1) % 2 ^ 48
    let ticks (i : Instr) (n : Nat) (h : Bool) : Prop := Makes i s fun u =>
      u.clk.count = n ∧ u.clk.waiting = s.clk.waiting ++ [n] ∧ u.clk.lastTick = some (max s.clk.now t) ∧
        u.clk.prevTick = s.clk.lastTick ∧ u.clk.holdover = h ∧ bit (u.reg Adr.GLB_EVT) 0 = true
    (∀ e, s.selected e = true → v.early = false → ticks (.tickInEdge e t) next false) ∧
    (s.tickSrc = 2 → v.newInstant = true → ticks (.ptpTickInstant t) (v.instantAt v.ptpNow % 2 ^ 48) s.clk.holdover) ∧
    (s.tickSrc = 3 → v.newInstant = true → ticks (.timerTick t) next s.clk.holdover) ∧
    (s.tickSrc < 2 → s.clk.holdover = false → v.overdue = true →
      (s.holdoverEn = true → ticks (.tickHoldover t) next true) ∧
      (s.holdoverEn = false → Makes (.tickHoldover t) s fun u => u.clk = { v.clk with holdover := true } ∧
        bit (u.reg Adr.GLB_EVT) 1 = true ∧ u.seq = s.seq)) ∧
    (s.tickSrc < 2 → s.clk.holdover = true → s.holdoverEn = true → v.periodOver = true → ticks (.holdoverTick t) next true)

/-- R19: for sources 0 and 1 an edge is a tick where at least 1 ms and at least (1 − TOL / 256) × period have passed since the last tick; an
earlier one is ignored, and counted in GLB_TICK_EARLY. -/
def Obligations.EarlyEdges : Prop :=
  ∀ (s : State) (e : TickEdge) (t last : Nat), s.boot.done = true → s.selected e = true → s.clk.lastTick = some last →
    let d := max s.clk.now t - last
    let ok := 1000000 ≤ d ∧ (256 - s.tickTol) * s.tickDen * 1000000000 ≤ d * 256 * s.tickNum
    (ok → Makes (.tickInEdge e t) s fun u => u.clk.lastTick = some (max s.clk.now t) ∧ u.clk.count = (s.clk.count + 1) % 2 ^ 48 ∧
      u.clk.waiting = s.clk.waiting ++ [(s.clk.count + 1) % 2 ^ 48]) ∧
    (¬ ok → Makes (.tickInEdge e t) s fun u => OnlyRegs (s.at_ t) u [Adr.GLB_TICK_EARLY] ∧ Counted s u Adr.GLB_TICK_EARLY)

/-- The training of a Landing group (R44, R45): DOWN, CDR, BLOCK, DESKEW, EQ, UP; a training that takes too long goes back to DOWN
and counts; after FAILED it starts again; adaptation moves a step by at most one, towards the larger opening. -/
def Obligations.LandingTraining : Prop :=
  ∀ (s : State) (g lanes : Nat), s.lgOn g = true →
    let x := s.lg g
    let k := Link.landing g
    (x.st = 0 → s.lgLanesNeeded g ≤ popcount lanes → Makes (.signalDetect k lanes) s fun u =>
      (u.lg g).st = 1 ∧ (u.lg g).sig = lanes % 256 ∧ (u.lg g).lock = 0 ∧ ∀ h, h ≠ g → u.lg h = s.lg h) ∧
    (x.st = 1 → lanesIn x.sig lanes = true → Makes (.cdrLock k lanes) s fun u => u = s.setLg g { x with st := 2 }) ∧
    (x.st = 2 → lanesIn x.sig (lanesOr x.lock (lanesAnd x.sig lanes)) = true →
      Makes (.blockLock k lanes) s fun u => u = s.setLg g { x with st := 3, lock := x.sig, marks := 0 }) ∧
    (∀ o, x.st = 4 → lanesIn x.sig x.lock = true → Makes (.eqSearchDone k o) s fun u =>
      u.lg g = { x with st := 5, eqd := lanesOr x.eqd x.sig, excl := 0, absorbed := false } ∧ ∀ h, h ≠ g → u.lg h = s.lg h) ∧
    (1 ≤ x.st → x.st ≤ 4 → Makes (.trainingTimeout k) s fun u =>
      u.lg g = { x with st := 0, lock := 0 } ∧ Counted s u (Adr.LND_CNT_LOCKLOSS g)) ∧
    (x.st = 7 → Makes (.failedRetrain k) s fun u => u = s.setLg g { x with st := 0, lock := 0 }) ∧
    (∀ o, x.st = 5 ∨ x.st = 6 → s.flag (Adr.LND_EQ_CTL g) 0 = true → s.flag (Adr.LND_EQ_CTL g) 1 = false →
      s.flag Adr.PWR_LOOP 1 = true → Makes (.eqAdapt k o) s fun u => OnlyRegs s u [Adr.LND_EQ_STAT g] ∧
        ∀ n p b a, n < 8 → hasLane (lanesMinus x.sig x.excl) n = true → o[n]? = some (p, b, a) →
          u.fld (Adr.LND_EQ_STAT g) (4 * n) 4 =
            adaptStep (s.fld (Adr.LND_EQ_STAT g) (4 * n) 4) (s.fld (Adr.LND_EQ_CTL g) 8 8) p b a)

/-- Landing's lanes in use (R46, R50, R51, R57, R58): two DESKEW positions in a row with the same valid map give the map; a lost
lane is rebuilt from a parity lane that stands apart; IDLE ends a row; a control block that is lost or reserved is counted. An
answer to a request sets the map for the next picture, a refused remap leaves the group DEGRADED with its event (R58, R59). What
it takes from a reading of the spec is the model's choice (log 16). -/
def Obligations.LandingLanes : Prop :=
  (∀ (s : State) (g : Nat), s.lgOn g = true →
    let x := s.lg g
    let k := Link.landing g
    (∀ ms m w p, x.st = 3 → s.flag (Adr.LND_EQ_CTL g) 1 = false →
      markMap 8 x.sig (s.fld (Adr.LND_CTL g) 6 3 + 1) (s.flag (Adr.LND_CTL g) 9) ms = some (m, w, p) →
      (x.marks = 0 → Makes (.deskew k ms) s fun u => u.lg g = { x with marks := 1, map := m, markW := w, markPar := p }) ∧
      (x.marks = 1 → x.map = m → x.markW = w → x.markPar = p → Makes (.deskew k ms) s fun u =>
        u.lg g = { x with marks := 0, map := m, w := w, par := p, st := 4, eqAt := s.clk.now })) ∧
    (∀ n, n < 8 → x.st = 5 → x.par = true → x.absorbed = false → hasLane x.excl n = false → x.map.getD n 15 ≠ 15 →
      Makes (.lockLoss k n) s fun u => (u.lg g).st = 6 ∧ (u.lg g).excl = addLane x.excl n ∧ (u.lg g).map = x.map ∧
        (u.lg g).lost = (if x.map.getD n 15 < 8 then some (x.map.getD n 15) else none) ∧
        Counted s u (Adr.LND_CNT_LOCKLOSS g) ∧ u.reg (Adr.LND_EVT g) = s.reg (Adr.LND_EVT g) ||| 1 ||| 2) ∧
    (∀ blks, x.st = 5 ∨ x.st = 6 → s.ctlCopies g blks = [] → Makes (.lostControlBlock k blks) s fun u =>
      OnlyRegs (s.heads g blks) u [Adr.LND_CNT_CTLERR g, Adr.LND_EVT g] ∧
        Counted (s.heads g blks) u (Adr.LND_CNT_CTLERR g) ∧ bit (u.reg (Adr.LND_EVT g)) 10 = true)) ∧
  (∀ (s v : State) (g : Nat) (blks : List LaneBlock) (d : BitVec 64), s.lgUp g = true → s.controlAt g blks = some (d, v) →
    let x := v.lg g
    x.row = none → x.info = none →
    (dbits d 0 8 = 0x1E → Makes (.idle (.landing g) blks) s fun u => u = v.setLg g { x with stray := false }) ∧
    (ctlTypes.contains (dbits d 0 8) = false → Makes (.reservedBlockType (.landing g) blks) s fun u =>
      u.lg g = { x with stray := false } ∧ Counted v u (Adr.LND_CNT_CTLERR g) ∧ bit (u.reg (Adr.LND_EVT g)) 10 = true) ∧
    ∀ arg q wide, dbits d 0 8 = 0x78 → dbits d 8 8 = q → x.ask = some (wide, arg, q) → dbits d 16 1 = 0 →
      Makes (.remapAck g blks) s fun u => (u.lg g).ask = none ∧ (u.lg g).st = x.st ∧
        (u.lg g).next = if wide then some (narrowed x arg, arg, false) else some (remapped x arg, x.w, false)) ∧
  ∀ (s : State) (g arg q : Nat), (s.lg g).ask = some (false, arg, q) →
    Makes (.remapRefused g) s fun u => u.lg g = { s.lg g with ask := none } ∧
      OnlyRegs (s.setLg g { s.lg g with ask := none }) u [Adr.LND_EVT g] ∧ bit (u.reg (Adr.LND_EVT g)) 8 = true

/-- The pictures of a Landing group that forms no gang (R51, R53, R55, R56, R57, R64): a RAW picture is accepted where a Casket slot is
free and the overflow region could hold its bands, and refused whole otherwise; its rows, time address and metadata are the
picture's; PICTURE_END after its last row ends it. A data position in a row adds the data of its slots (R47, R48); in a metadata run
it adds the run's blocks, and byte k of the metadata is byte k mod 8 of block k / 8. What it takes from a reading of the spec is the
model's choice (log 15). -/
def Obligations.LandingPictures : Prop :=
  (∀ (s v : State) (g t : Nat) (blks : List LaneBlock) (d : BitVec 64), s.lgUp g = true → s.controlAt g blks = some (d, v) →
    v.lgMode g = 0 → v.lgGang g = 1 → (v.lg g).row = none → (v.lg g).info = none →
    let x := v.lg g
    let k := v.lgStream g
    let type := dbits d 0 8
    let mine : Bool := dbits d 8 2 = k
    let no := dbits d 16 16
    let resync : Bool := dbits d 32 1 = 1
    (type = 0x33 → mine = true → x.pic = none → x.next = none → v.streamRuns 0 k = true →
      ((v.freeSlot k g).isSome = true → v.nBands g ≤ v.overflowRoom k g → Makes (.pictureStart g blks t) s fun u =>
        (u.lg g).pic = some ⟨no, some (v.fs k).accepted, none, none, 0, false⟩ ∧
        (u.fs k).accepted = (v.fs k).accepted + 1 ∧ ∃ p, (u.fs k).pics = (v.fs k).pics ++ [p] ∧
          p.no = no ∧ p.ord = (v.fs k).accepted ∧ p.tick = v.clk.count ∧ p.resync = (resync || (v.fs k).resync)) ∧
      (v.freeSlot k g = none → (v.fs k).refused ≠ some no → Makes (.pictureStart g blks t) s fun u =>
        (u.lg g).pic = some ⟨no, none, none, none, 0, false⟩ ∧ (u.fs k).pics = (v.fs k).pics ∧
        Counted v u (Adr.LND_CNT_DROP g))) ∧
    (∀ p, x.pic = some p →
      (type = 0x55 → mine = true → dbits d 24 16 = (match p.lastRow with
          | some r => r + 1
          | none => 0) → dbits d 24 16 < v.lgHeight g → Makes (.rowStart g blks) s fun u =>
        (u.lg g).row = some (dbits d 24 16) ∧ (u.lg g).blks = [] ∧
        (u.lg g).pic = some { p with lastRow := some (dbits d 24 16), rows := p.rows + 1 } ∧ u.fct = v.fct ∧ u.dram = v.dram) ∧
      (type = 0x3C → Makes (.timecode g blks) s fun u =>
        (u.lg g).tcBlk = some (BitVec.ofNat 32 (dbits d 8 32)) ∧ (u.lg g).pic = some p) ∧
      (type = 0x66 → mine = true → p.lastRow = none → 0 < dbits d 16 13 → dbits d 16 13 ≤ 4096 →
        Makes (.metadata g blks) s fun u => u = v.setLg g { x with stray := false, info := some (dbits d 16 13, true, []) }) ∧
      (type = 0x4E → mine = true → dbits d 32 16 = p.rows % 65536 → p.lastRow = some (v.lgHeight g - 1) → 0 < v.lgHeight g →
        Makes (.pictureEnd g blks) s fun u => (u.lg g).pic = none ∧ u.fct = v.fct ∧ u.dram = v.dram))) ∧
  ∀ (s : State) (g : Nat) (l : List LaneBlock), s.lgUp g = true →
    let v := s.heads g l
    let x := v.lg g
    let d := (List.range x.w).map fun j => v.slotData g j l
    x.par = false →
    (∀ row, x.row = some row → x.blks.length + x.w < ceilDiv (v.rowLen g) 32 * 9 →
      Makes (.dataPosition g l) s fun u => u = v.setLg g { x with blks := x.blks ++ d }) ∧
    ∀ n blks, x.row = none → x.info = some (n, true, blks) →
      let byte (k : Nat) : Byte := BitVec.ofNat 8 ((((blks ++ d).getD (k / 8) none).getD 0).toNat / 2 ^ (8 * (k % 8)))
      (blks.length + x.w < ceilDiv n 8 →
        Makes (.dataPosition g l) s fun u => u = v.setLg g { x with info := some (n, true, blks ++ d) }) ∧
      (∀ p o q, ceilDiv n 8 ≤ blks.length + x.w → ((blks ++ d).all fun b => b.isSome) = true → x.pic = some p → p.ord = some o →
        v.pic? (v.lgStream g) o = some q → Makes (.dataPosition g l) s fun u => (u.lg g).info = none ∧
          u.pic? (v.lgStream g) o = some { q with info := (List.range n).map byte })

/-- The training and the losses of a Ferry group (R331): as a Landing group's to EQ, then HANDSHAKE; TRAIN blocks agree on a width and
the eighth in a row brings the link UP; 20 ms without UP fail the link, which is counted and reported. -/
def Obligations.CrossingTraining : Prop :=
  ∀ (s : State) (g lanes : Nat), s.ferryOn g = true →
    let x := s.xg g
    let k := Link.crossing g
    let l := lanesAnd lanes (2 ^ s.xgWidth g - 1)
    (x.st = 0 → 0 < popcount l → Makes (.signalDetect k lanes) s fun u =>
      (u.xg g).st = 1 ∧ (u.xg g).sig = l ∧ (u.xg g).lock = 0 ∧ (u.xg g).txSeq = x.txSeq ∧ (u.xg g).retry = x.retry) ∧
    (x.st = 1 → lanesIn x.sig lanes = true → Makes (.cdrLock k lanes) s fun u => u = s.setXg g { x with st := 2 }) ∧
    (x.st = 2 → lanesIn x.sig (lanesOr x.lock (lanesAnd x.sig lanes)) = true →
      Makes (.blockLock k lanes) s fun u => u = s.setXg g { x with st := 3, lock := x.sig, marks := 0 }) ∧
    (∀ ms m w p, x.st = 3 → s.flag (Adr.XCV_EQ_CTL g) 1 = false → markMap 4 x.sig (s.xgWidth g) false ms = some (m, w, p) →
      x.marks = 1 → x.markMap = m → Makes (.deskew k ms) s fun u => u = s.setXg g { x with marks := 0, map := m, st := 4 }) ∧
    (∀ o, x.st = 4 → lanesIn x.sig x.lock = true → Makes (.eqSearchDone k o) s fun u =>
      u.xg g = { x with st := 5, eqd := lanesOr x.eqd x.sig, peer := 0, agree := 0 }) ∧
    (∀ b : TrainBlk, x.st = 5 → b.ready = true →
      let n := popcount (lanesAnd x.lock b.lanes)
      ∀ w, ([4, 2, 1] : List Nat).find? (fun w => w ≤ s.xgWidth g ∧ w ≤ n) = some w → x.peer = w →
        (0 < x.agree → x.agree < 7 → Makes (.trainBlock g b) s fun u => u.xg g = { x with agree := x.agree + 1 } ∧
          u.sent = s.sent ++ [.ferryTrain g x.lock true x.rxSeq]) ∧
        (x.agree = 7 → Makes (.trainBlock g b) s fun u => (u.xg g).st = 6 ∧ (u.xg g).w = w ∧ bit (u.reg (Adr.XCV_EVT g)) 0 = true)) ∧
    (1 ≤ x.st → x.st ≤ 5 → s.roomAt (24 + g) → ∀ i ∈ [Instr.trainingTimeout k, .ferryTimeout g], Makes i s fun u =>
      u.xg g = { x with st := 7, lock := 0 } ∧ Counted s u (Adr.XCV_CNT_LOCKLOSS g) ∧ bit (u.reg (Adr.XCV_EVT g)) 1 = true ∧
        Reported u (24 + g) 1 0 (target 7 g)) ∧
    (x.st = 7 → Makes (.failedRetrain k) s fun u => u = s.setXg g { x with st := 0, lock := 0 }) ∧
    (∀ n, n < 4 → x.st ≠ 6 → hasLane x.lock n = true → Makes (.lockLoss k n) s fun u =>
      u.xg g = { x with lock := delLane x.lock n } ∧ Counted s u (Adr.XCV_CNT_LOCKLOSS g)) ∧
    ∀ blks, (Makes (.idle k blks) s fun u => u = s) ∧
    ∀ i ∈ [Instr.lostControlBlock k blks, .reservedBlockType k blks], Makes i s fun u =>
      OnlyRegs s u [Adr.XCV_CNT_CRCERR g, Adr.XCV_EVT g] ∧ Counted s u (Adr.XCV_CNT_CRCERR g) ∧ bit (u.reg (Adr.XCV_EVT g)) 5 = true

/-- A Facet engine on a FIXED band (R106, R108, R120): a row decision moves to the next row in decision order and keeps one index, that
of the finest strand whose size is at most the allowance, where one is; the band whose last row is decided and written is final, and its engine idle; a moved band makes the next one the next to move.
What it takes from a reading of the spec is the model's choice (log 17). -/
def Obligations.FacetEngines : Prop :=
  ∀ (s : State) (e : Nat),
    (∀ w p, (s.eng e).work = some w → s.pic? w.stream w.ord = some p → w.stopped = false → s.fMode w.stream = 2 →
      s.domUp (3 + e) = true →
      let l := s.lay w.stream
      let total := l.ns * l.rowsOf w.n
      let at_ := l.decRow w.n w.idx
      (∀ r below stall, (w.und.filter fun x => x.m % 8 = at_.1 % 8) = r :: below → r.m = at_.1 → r.r = at_.2 →
        (Makes (.rowDecision e stall) s fun u => (u.eng e).work.map (·.idx) = some (w.idx + 1) ∧
          (u.pic? w.stream w.ord).map (fun q => (q.band w.n).qis.length) = some ((p.band w.n).qis.length + 1)) ∧
        ∀ k o, r.forced = false → r.finest (p.allowance l w.n w.idx (s.picP p).n) = some (k, o) →
          Makes (.rowDecision e stall) s fun u => (u.pic? w.stream w.ord).map (fun q => ((q.band w.n).qis, (q.band w.n).used)) =
            some ((p.band w.n).qis ++ [r.qc + k * s.fDelta w.stream - s.fDelta w.stream], (p.band w.n).used + o.bytes.length)) ∧
      (w.idx = total → s.lanesDrained e = true → (s.eng e).queue = [] → Makes (.bandFinal e) s fun u =>
        (u.eng e).work = none ∧ (u.pic? w.stream w.ord).map (fun r => (r.band w.n).st) = some .final ∧
          u.evts = (s.occur (0x10 + e)).evts ∧ u.dram = s.dram ∧ u.qf = s.qf)) ∧
    (∀ p n, s.movingBand e = some (p, n) → s.pic? p.stream p.ord = some p → s.lockFree (s.fld (Adr.FCT_S_RQ p.stream) 0 12) (5 + e) = true →
      s.hasEvent (0x18 + e) = true → Makes (.bandMoved e) s fun u =>
        (u.pic? p.stream p.ord).map (fun r => (r.nextMove, (r.band n).st)) = some (n + 1, .moved) ∧ 0 < tget 0 u.evts (0x18 + e))

/-- A codec engine (R144, R152, R155): a row decision, on strands that their caps and the units around them allow, counts the row, the
slice and the bytes of the strand kept, which is the coarser only under CBR2 and where the finer exceeds the allowance; a picture whose last row is coded ends,
takes the next number, frees its engine and signals its context's event; a LIVE slice that has not left in time is reported as
LIVE_OVERRUN (R28). What it takes from a reading of the spec is the model's choice (log 17). -/
def Obligations.CodecEngines : Prop :=
  (∀ (s : State) (e c : Nat), (s.ce e).cur = some c →
    let x := s.cx c
    (∀ w finer coarser stall, tget? x.work (s.cTile c e) = some w → w.row < s.cRows c → s.cClass c ≠ 0 ∨ w.row < x.rows →
      s.domUp (8 + e) = true → s.cWhole c = false →
      let allow := s.cAllowance c w
      s.rowOk c (s.cTile c e) w allow finer coarser = true →
      let coarse : Bool := w.pic.src.rcv.mode = 2 ∧ allow < finer.slice.length
      let kept := if coarse then coarser else finer
      let caps := s.rowCaps c (s.cTile c e) w allow
      Makes (.cbrRowDecision e finer coarser stall) s fun u => ∃ v, tget? (u.cx c).work (s.cTile c e) = some v ∧
        v.row = w.row + 1 ∧ v.slices = w.slices + 1 ∧ v.used = w.used + kept.slice.length ∧
          v.capped = w.capped + strandCapped (if coarse then caps.2 else caps.1) kept) ∧
    (∀ w busy v, s.cDec c = false → x.work = [(s.cTile c e, w)] → s.cRows c ≤ w.row → (s.ce e).aside = none →
      (s.ce e).ready = [] → x.code = [] → x.goTo = none → Makes (.codecPictureDone e busy v) s fun u =>
        (u.cx c).work = [] ∧ (u.cx c).picNum = (x.picNum + 1) % 2 ^ 32 ∧ (u.ce e).cur = none ∧
          (u.ce e).busy = (s.ce e).busy + busy ∧ u.evts = (s.occur (0x20 + c)).evts ∧ u.dram = s.dram ∧ u.qf = s.qf)) ∧
  ∀ (s : State) (c : Nat), s.cEn c = true → s.cClass c = 0 → s.roomAt 4 →
    Makes (.liveOverrun c) s fun u => Reported u 4 0x0100 0 (target 2 c) ∧ u = { s with flt := u.flt }

/-- Facet playback (R172, R174): the first part of a picture opens it in a free staging buffer; the second stream tick after it
closes the picture, which raises its event; a picture whose bands are all decoded leaves staging and joins the output list. What
it takes from a reading of the spec is the model's choice (log 18 and 19). -/
def Obligations.FacetPlayback : Prop :=
  ∀ (s : State) (p : Nat), s.pEn p = true →
    let x := s.ps p
    (∀ k l bad after b, s.readPkt (s.pInq p) = (some (k, l, bad), after) → x.closed.contains (leNat (l.take 4)) = false →
      (x.stg.find? fun g => g.number = leNat (l.take 4) && !g.closed) = none → s.freeStg p = some b →
      Makes (.part p) s fun u => (u.ps p).opened = x.opened + 1 ∧
        ∃ g ∈ (u.ps p).stg, g.number = leNat (l.take 4) ∧ g.buf = b ∧ g.ord = x.opened ∧ g.first = x.ticks) ∧
    (∀ n g, (x.stg.find? fun g => g.number = n && !g.closed) = some g → g.first + 2 ≤ x.ticks →
      Makes (.pictureCloseTimeout p n) s fun u => (∀ h ∈ (u.ps p).stg, h.ord = g.ord → h.closed = true) ∧
        u.evts = (s.occur (0xA0 + p)).evts ∧ u.dram = s.dram ∧ u.qf = s.qf) ∧
    (∀ g, (x.stg.find? fun g => g.closed && g.out.isSome && g.bands.length = s.stgBands p g) = some g →
      Makes (.bandsDecoded p) s fun u => (u.ps p).stg = x.stg.filter (fun h => h.ord ≠ g.ord) ∧ u.dram = s.dram ∧ u.qf = s.qf ∧
        (u.ps p).ring.last = x.ring.last ∧ ∃ o, (u.ps p).ring.list = x.ring.list ++ [o] ∧ o.buf = g.out.getD 0)

/-- H.265 playback (R173, R186): a NAL unit opens an access unit; the second stream tick after it closes the unit, which is then
ready; with its last picture still tainted, a context asks for a key picture again after KEY_RETRY ticks. What it takes from a
reading of the spec is the model's choice (log 19). -/
def Obligations.H265Playback : Prop :=
  ∀ (s : State) (c : Nat), s.cEn c = true → s.cDec c = true →
    let x := s.cx c
    (∀ k l bad after n, s.readPkt (s.cQueue c) = (some (k, l, bad), after) → s.cPkg c = true →
      (l.getD 3 0).toNat / 16 % 2 = 0 → (l.getD 3 0).toNat / 2 % 2 = 0 → x.au = none → (n.slice && n.skip) = false →
      Makes (.nalUnit c [n]) s fun u => (u.cx c).au = some ⟨1, b2n n.slice, 0, n.slice && n.irap, x.ticks, false⟩) ∧
    (∀ a, x.au = some a → a.first + 2 ≤ x.ticks → x.waitIrap = false → 0 < a.slices → a.drop = false →
      Makes (.auCloseTimeout c) s fun u =>
        u = s.setCx c { x with au := none, closed := x.closed ++ [⟨a.n, a.slices, a.irap⟩] }) ∧
    (∀ n, x.taint = true → x.episode = some n → s.fld (Adr.COD_D_CTL c) 8 8 ≤ n →
      let g := s.fld (Adr.COD_D_CTL c) 3 2
      s.ferryUp g = true → (s.xg g).ctl.length < 16 → Makes (.keyRetry c) s fun u =>
        u.cx c = { x with reqNext := false, episode := some 0 } ∧ Counted s u (Adr.COD_D_CNT_KEYREQ c) ∧
          (u.xg g).ctl = (s.xg g).ctl ++
            [[0x10, 0, BitVec.ofNat 8 (s.xg g).keySeq, 0] ++ leBytes 2 (s.fld (Adr.COD_D_CTL c) 16 16) ++ [0, 0] ++ leBytes 6 s.clk.count ++ [0, 0]])

/-- A packet's way into a queue (R229, R230, R236, R261): of the producers that ask in one cycle the lowest index takes the free lock and
the others wait; bytes become words at TAIL; EOP rounds TAIL up to a word, frees the lock and leaves the packet to wait for its
notice. The buffer of a reference packet passes into transit. What it takes from a reading of the spec is the model's choice
(log 13). -/
def Obligations.QueuePackets : Prop :=
  ∀ (s : State) (q prod : Nat), s.qRefuse q = none →
    let x := s.queue q
    (∀ prods, x.resting = true → (prods.all fun p => mayEnqueue q p) = true →
      least? (prods.filter fun p => !x.fenceWaits p) = some prod → Makes (.packetStart q prods) s fun u =>
        u.queue q = { x with lock := some (prod, x.tail), ptr := (prod + 1) % 15, waiters := prods.filter (· ≠ prod) } ∧
          (∀ r, r ≠ q → u.queue r = s.queue r) ∧ FabDone u 0) ∧
    (∀ start, x.lock = some (prod, start) → x.waiters = [] → x.held = [] → x.backlog = [] → s.qNoSpill q = true →
      (∀ l bad, x.tail % 32 = 0 → s.qLimit q = 0 → x.tail / 32 < x.base + 2 ^ 26 → x.words.length < s.qHead q → 0 < l.length →
        l.length ≤ 32 → x.openLen + l.length ≤ pktMax →
        Makes (.enqueue q prod l bad) s fun u => (u.queue q).words = x.words ++ [mkWord l bad] ∧
          (u.queue q).tail = x.tail + l.length ∧ (u.queue q).lock = x.lock ∧ (∀ r, r ≠ q → u.queue r = s.queue r) ∧ FabDone u 0) ∧
      (∀ tag fence ecc, start < x.tail →
        let stop := (x.tail + 31) / 32 * 32
        let ends (ref : Option (Word × Nat)) (u : State) : Prop := (u.queue q).tail = stop ∧ (u.queue q).lock = none ∧
          (u.queue q).words = x.words ∧ (u.queue q).pkts = x.pkts ++
            [⟨prod, start, x.tail - start, tag, stop, ref, s.strictFence fence, false, false, false, false, 0, 0⟩] ∧
          (∀ r, r ≠ q → u.queue r = s.queue r) ∧ FabDone u 0
        (Makes (.eop q prod tag fence none ecc) s fun u => ends none u ∧ u.dram = s.dram) ∧
        ∀ ch, let h := BitVec.ofNat 32 (leNat (x.openBytes.take 4))
          x.tail - start ≤ 32 → s.badHandle h = false → ownReserved (s.owner h) = false → s.owner h = producerReq prod ch →
          s.dramCode 10 (s.ownAddr h) 2 true = Code.done → Makes (.eop q prod tag fence (some ch) false) s fun u =>
            ends (some (h, producerReq prod ch)) u ∧ u.dram = memWrite 0 s.dram (s.ownAddr h) (leBytes 2 (0x8000 + q))))

/-- Notices and reading (R229, R236, R242, R246): a packet whose words can all be read and whose fence is complete gets its notice, numbered in order; the consumer takes
it; a host read of the last word at READ returns the word and moves READ on by one word. -/
def Obligations.QueueNotices : Prop :=
  ∀ (s : State) (q : Nat), q < 4096 →
    let x := s.queue q
    (∀ p t, s.portOf q = none → x.pkts = [p] → p.issued = false → p.stop ≤ x.tail → x.waiters = [] →
      (p.fence = .wr → s.portWaits (producerPort p.prod) = false) →
      Makes (.noticeIssue q t) s fun u => ∃ r, (u.queue q).pkts = [r] ∧ r.issued = true ∧ r.taken = p.taken ∧ r.start = p.start ∧
        r.len = p.len ∧ r.tag = p.tag ∧ r.seq = x.seq % 65536 ∧ (u.queue q).seq = x.seq + 1 ∧ Counted s u (Adr.QF_Q_CNT_PKT q)) ∧
    (∀ p, x.oldest = some p → p.handle = none → Makes (.noticeTake q .consumer) s fun u =>
      u = s.setQueue q { x with pkts := x.pkts.map fun r => if r.start = p.start then { r with taken := true } else r }) ∧
    (∀ p f, x.current = some p → s.readable (Adr.QF_Q_RDATA q 7) → s.qCons q = 0 → s.qAutoRel q = false → x.resting = true →
      x.read / 32 < x.headEnd → Makes (.rdataRead q f false) s fun u => (u.queue q).read = (x.read / 32 + 1) * 32 ∧ (u.queue q).tail = x.tail ∧
        Returned u f (BitVec.ofNat 32 (leNat ((x.word (x.read / 32)).data.drop 28))))

/-- Clasps of a queue at rest (R231 to R234): MARK answers TAIL and changes nothing; a rewind moves TAIL back, a release moves REL
forward, and a consumer's rewind moves READ back, makes the packets from there untaken again and gives each a new notice, whose
POISON is that of its words now. -/
def Obligations.QueuePositions : Prop :=
  ∀ (s : State) (q clasp prod : Nat), s.qRefuse q = none →
    let x := s.queue q
    let c := x.extend clasp
    x.resting = true →
    (Makes (.mark q prod) s fun u => u = { s with rd := u.rd } ∧ FabDone u (x.tail % 2 ^ 32)) ∧
    (x.pkts = [] → c ≤ x.tail → Makes (.producerRewind q clasp) s fun u => (u.queue q).tail = c ∧ (u.queue q).rel = x.rel ∧
      (u.queue q).read = x.read ∧ (∀ r, r ≠ q → u.queue r = s.queue r) ∧ FabDone u 0) ∧
    (c ≤ x.read → (x.pkts.any fun p => p.taken && p.start = c) = true → Makes (.consumerRewind q clasp) s fun u =>
      (u.queue q).read = c ∧ (u.queue q).tail = x.tail ∧ (u.queue q).rel = x.rel ∧
        (u.queue q).pkts.map (·.start) = x.pkts.map (·.start) ∧ (∀ p ∈ (u.queue q).pkts, c ≤ p.start → p.taken = false) ∧
        (∀ p ∈ x.pkts, p.taken = true → c ≤ p.start →
          ((u.queue q).pkts.any fun r => r.start = p.start && r.replay && r.poison = x.pktPoison p) = true) ∧
        (∀ r, r ≠ q → u.queue r = s.queue r) ∧ FabDone u 0) ∧
    (c ≤ x.read → Makes (.release q clasp) s fun u => (u.queue q).rel = c ∧ (u.queue q).tail = x.tail ∧ (u.queue q).read = x.read ∧
      (∀ r, r ≠ q → u.queue r = s.queue r) ∧ FabDone u 0)

/-- Resets and refills of the fabric (R236, R245): a queue's reset leaves nothing in it but its chain, which the walk frees; the
reset of the whole fabric leaves every queue and pool fresh, and a walk that it ends is done; a refill takes the next word back from the DRAM middle. What it
takes from a reading of the spec is the model's choice (log 13). -/
def Obligations.QueueResets : Prop :=
  ∀ (s : State) (q : Nat) (f : Iface), q < 4096 →
    let x := s.queue q
    (s.writable f (Adr.QF_Q_OP q) 2 → s.qResetCode q = Code.done → (∀ p ∈ x.pkts, p.handle = none) → Makes (.qReset q f) s fun u =>
      u.queue q = { Queue.fresh with chain := x.chain, walk := true } ∧ u.reg (Adr.QF_Q_OPRES q) = 256 ∧
        (∀ r, r ≠ q → u.queue r = s.queue r) ∧ u.dram = s.dram) ∧
    (x.walk = true → x.chain = [] → x.waiters = [] → s.win = [] → Makes (.chainWalkDone q) s fun u =>
      u.queue q = { Queue.fresh with held := x.held } ∧ ∀ r, r ≠ q → u.queue r = s.queue r) ∧
    (s.writable f Adr.QF_RESET 1 → s.anyRuns = false → Makes (.fabricReset f) s fun u => u.qf = [] ∧ u.pools = [] ∧
      u.reg Adr.QF_CHAIN_BUF = 0 ∧ u.reg Adr.QF_RESET_RES = 0 ∧ u.dram = s.dram ∧
      (x.walk = true → u.fld (Adr.QF_Q_OPRES q) 0 9 = Code.done)) ∧
    (∀ a c, chainAddr s q x.headEnd = some a →
      (x.chain.find? fun c => c.first ≤ x.headEnd && x.headEnd < c.first + c.n) = some c → s.linkOk c = true → 1 < x.midWords → x.headWords < s.qHead q → x.waiters = [] → x.backlog = [] →
      x.stall = none → parityOf (memRead 0 s.dram a 32) = (x.word x.headEnd).parity → Makes (.headRefill q 1 [] false) s fun u =>
        u = s.setQueue q { x.setWord x.headEnd { x.word x.headEnd with data := memRead 0 s.dram a 32 } with headEnd := x.headEnd + 1 })

/-- Buffers (R250 to R262): one requester's allocation takes the next handle of its pool and is charged; a free by the owner returns
the buffer to the cache; the cache is refilled from the ring, 16 handles at a time. The host asks as requester 13 and frees
through its registers; a read of BP_P_MINFREE leaves the present count (R8, R262). What it takes from a reading of the spec is
the model's choice (log 12). -/
def Obligations.Buffers : Prop :=
  (∀ (s : State) (k r : Nat) (h : Word), k < 6 → r < 64 →
    (∀ p, (s.pool k).waiting = [] → s.held r + poolUnits k ≤ s.quota r → s.held r + poolUnits k < 2 ^ 24 →
      s.flag (Adr.BP_P_CTL k) 0 = true → 0 < s.poolFree k → (s.pool k).take k (s.poolCount k) = some (h, p) →
      s.dramCode 10 (s.ownAddr h) 2 true = Code.done →
      Makes (.allocate k [⟨r, false, k⟩]) s fun u => tget? u.answers r = some (Code.done, h) ∧ u.held r = s.held r + poolUnits k ∧
        (u.pool k).cache = p.cache ∧ (u.pool k).next = p.next ∧
        u.dram = memWrite 0 s.dram (s.ownAddr h) (leBytes 2 r)) ∧
    (s.badHandle h = false → ownReserved r = false → s.owner h = r → r ≠ 0xFFFF →
      s.dramCode 10 (s.ownAddr h) 2 true = Code.done → (s.pool (handlePool h)).cache.length < 48 →
      Makes (.free [⟨r, h, false⟩]) s fun u => tget? u.answers r = some (Code.done, 0) ∧
        (u.pool (handlePool h)).cache = h :: (s.pool (handlePool h)).cache ∧
        u.held r = s.held r - poolUnits (handlePool h) ∧ u.dram = memWrite 0 s.dram (s.ownAddr h) (leBytes 2 0xFFFF)) ∧
    (s.refillDue k = true → (s.pool k).waiting = [] → Makes (.cacheRefill k) s fun u =>
      let n := min 16 (s.pool k).ringCount
      u = s.setPool k { s.pool k with
        cache := (s.pool k).cache ++ (s.ringRead k n).reverse, ringHead := ((s.pool k).ringHead + n) % max 1 (s.poolCount k),
        ringCount := (s.pool k).ringCount - n })) ∧
  ∀ (s : State) (f : Iface) (v : Word) (k : Nat),
    (s.writable f Adr.BP_H_ALLOC v → s.flag Adr.BP_H_RES 8 = false →
      askPool ⟨13, bit v 3, if bit v 3 then bits v 8 19 else bits v 0 3⟩ = .ok k → Makes (.bpHAlloc f v) s fun u =>
        u.reg Adr.BP_H_RES = 256 ∧ u.dram = s.dram ∧
          (u.pool k).waiting = (s.pool k).waiting ++ [⟨13, false⟩]) ∧
    (∀ ecc, s.writable f Adr.BP_H_FREE v → s.flag Adr.BP_H_FREE_RES 8 = false → Makes (.bpHFree f v ecc) s fun u =>
      (s.badHandle v = true → u.reg Adr.BP_H_FREE_RES = 0x03 ∧ Counted s u Adr.BP_CNT_BADFREE ∧ u.dram = s.dram) ∧
      (s.badHandle v = false → ecc = true → u.reg Adr.BP_H_FREE_RES = BitVec.ofNat 32 Code.notOwner ∧
        bit (u.reg Adr.BP_EVT) 3 = true ∧ u.dram = s.dram) ∧
      (s.badHandle v = false → ecc = false → s.owner v = 13 → s.dramCode 10 (s.ownAddr v) 2 true = Code.done →
        u.reg Adr.BP_H_FREE_RES = 0 ∧ ((s.pool (handlePool v)).cache.length < 48 →
          u.dram = memWrite 0 s.dram (s.ownAddr v) (leBytes 2 0xFFFF)))) ∧
    (k < 6 → s.readable (Adr.BP_P_MINFREE k) → Makes (.bpPMinfree f k) s fun u =>
      Returned u f (s.reg (Adr.BP_P_MINFREE k)) ∧ u.reg (Adr.BP_P_MINFREE k) = BitVec.ofNat 32 (s.poolFree k) ∧
        OnlyRegs { s with rd := u.rd } u [Adr.BP_P_MINFREE k])

/-- DRAM accesses (R265, R277 to R280): a write that its checks let pass changes its bytes alone and is acknowledged; one to
reserved DRAM changes nothing; a read is answered with the bytes when its row is served; a batch of writes leaves the queue.
What it takes from a reading of the spec is the model's choice (log 22). -/
def Obligations.DramAccesses : Prop :=
  ∀ (s : State) (port a t ch : Nat), port < 14 → s.nCh ≠ 0 →
    (∀ l, s.dramCode port a l.length true = Code.done → Makes (.dramRequest port a (.write l) t) s fun u =>
      u.dram = memWrite 0 s.dram a l ∧ tget? u.rd (16 + port) = some [BitVec.ofNat 32 Code.done]) ∧
    (∀ l, s.dramCode port a l.length true = Code.badTarget → Makes (.dramRequest port a (.write l) t) s fun u =>
      u.dram = s.dram ∧ u.dch = s.dch ∧ tget? u.rd (16 + port) = some [BitVec.ofNat 32 Code.badTarget]) ∧
    (∀ n, Makes (.dramRequest port a (.read n) t) s fun u => u.dram = s.dram) ∧
    (∀ r, s.chanOn ch = true → s.dc ch = { s.dc ch with reads := [r], writes := [], wait := [] } →
      0 < s.fld (Adr.DMC_SCHED (ch / 4)) 0 5 → Makes (.rowBatch ch [.good] t) s fun u => (u.dc ch).reads = [] ∧ u.dram = s.dram ∧
        tget? u.rd (16 + r.port) = some (BitVec.ofNat 32 Code.done :: wordsOf (r.cover.map fun i => memGet 0 s.dram (32 * r.unit + i)))) ∧
    (∀ r, s.chanOn ch = true → s.dc ch = { s.dc ch with reads := [], writes := [r], wait := [] } →
      0 < s.fld (Adr.DMC_SCHED (ch / 4)) 0 5 → Makes (.writeBatch ch t) s fun u => (u.dc ch).writes = [] ∧ u.dram = s.dram)

/-- The upkeep of a channel in use (R273, R281 to R285, R289): refreshes are owed and issued, the rate follows MR4, an idle channel
powers down or refreshes itself, the scrubber goes on to the next block, a failed adjustment is reported, and a ZQ latch
changes nothing. -/
def Obligations.ChannelUpkeep : Prop :=
  ∀ (s : State) (ch : Nat), s.chanOn ch = true →
    let x := s.dc ch
    let d := ch / 4
    (x.sr = false → x.empty = false → x.owed + 1 < s.fld (Adr.DMC_REF_CTL d) 0 4 → Makes (.refresh ch) s fun u =>
      u = s.setDc ch { x with owed := x.owed + 1 }) ∧
    (x.sr = false → x.empty = true → Makes (.refresh ch) s fun u => u.dc ch = { x with owed := 0 } ∧
      u.reg (Adr.DMC_CH_CNT_REF d (ch % 4)) =
        BitVec.ofNat 32 (sat 0xFFFFFFFF ((s.reg (Adr.DMC_CH_CNT_REF d (ch % 4))).toNat + (x.owed + 1)))) ∧
    (∀ rate, rate < 3 → rate ≤ x.rate → Makes (.mr4Poll ch rate) s fun u => u.dc ch = { x with rate := rate } ∧
      u.fld (Adr.DMC_TEMP d) (2 * (ch % 4)) 2 = rate) ∧
    (x.empty = true → s.fld (Adr.DMC_PWR_CTL d) 0 8 ≠ 0 → Makes (.powerDownEntry ch) s fun u => u = s.setDc ch { x with pd := true }) ∧
    (x.empty = true → s.fld (Adr.DMC_PWR_CTL d) 16 16 ≠ 0 →
      ((List.range 16).any fun r => bit (s.rgn r).2.2 0 && bit (s.rgn r).2.2 2) = false → Makes (.selfRefreshEntry ch) s fun u =>
        u.dc ch = { x with owed := 0, pd := false, sr := true }) ∧
    (∀ n, n = s.eccSpans.foldl (fun a x => a + x.2) 0 → n ≠ 0 → s.fld Adr.DMC_G_SCRUB 0 16 ≠ 0 →
      (Makes (.patrolScrub ch .good) s fun u => u = s.setDc ch { x with scrub := (x.scrub % n + 1) % n }) ∧
      (Makes (.patrolScrub ch .single) s fun u => (u.dc ch).scrub = (x.scrub % n + 1) % n ∧
        Counted s u (Adr.DMC_CH_CNT_CORR d (ch % 4)) ∧ u.dram = s.dram)) ∧
    (Makes (.wck2dqOsc ch true) s fun u => u = s) ∧
    (s.roomAt (36 + d) → Makes (.wck2dqOsc ch false) s fun u => bit (u.reg (Adr.DMC_EVT d)) 9 = true ∧ Reported u (36 + d) 9 0 (target 8 ch)) ∧
    ∀ n, Makes (.zqLatch n) s fun u => u = s

/-- A channel's retirement, repair and return (R294 to R296). What it takes from a reading of the spec is the model's choice (log
22). -/
def Obligations.ChannelRetirement : Prop :=
  ∀ (s : State) (ch : Nat), ch < 16 →
    let d := ch / 4
    (∀ lost, s.inRetire ch 1 = true → Makes (.evacuationDone ch lost) s fun u => u.dk d = ⟨2, ch % 4, s.rtop / 256⟩ ∧
      (u.dc ch).up = false ∧ (u.dc ch).out = true ∧ u.dram = s.dram) ∧
    (∀ rows, s.inRetire ch 2 = true →
      (Makes (.channelRepair ch true rows) s fun u => u.dk d = ⟨4, ch % 4, 0⟩ ∧ (u.dc ch).cand = [] ∧ u.dram = s.dram) ∧
      (Makes (.channelRepair ch false rows) s fun u => u.dk d = ⟨3, ch % 4, (s.dk d).ptr⟩ ∧ u.dc ch = s.dc ch ∧ u.dram = s.dram)) ∧
    (s.inRetire ch 4 = true → Makes (.returnDone ch) s fun u => u.dk d = DCtl.fresh ∧ (u.dc ch).up = true ∧ (u.dc ch).out = false ∧
      bit (u.reg (Adr.DMC_EVT d)) 7 = true ∧ u.dram = s.dram)

/-- UNIT_CHOICE at a free port (R303, R304, R335, R338): a waiting CONTROL message goes first; else the unit of the one queue that
is eligible, which occupies the port for its wire time and leaves no commitment. What it takes from a reading of the spec is the
model's choice (log 21). -/
def Obligations.UnitChoice : Prop :=
  ∀ (s : State) (p t : Nat), p < 2 * s.nXcv →
    let g := p / 2
    let v := (s.at_ t).setSp p { s.sp p with cls := 3 }
    (s.sp p).free ≤ v.clk.now →
    (∀ m rest, s.servedBy p = [] → s.isFerry p = true → s.portReady p = true → (s.xg g).ctl = m :: rest →
      Makes (.unitChoice p t) s fun u => (u.xg g).ctl = rest ∧ (u.xg g).txSeq = ((s.xg g).txSeq + 1) % 65536 ∧
        (u.xg g).retry = (s.xg g).retry ++ [⟨(s.xg g).txSeq, some m, 0, 0, 0, true, 0, 0⟩] ∧
        u.sent = s.sent ++ [.ferry g 1 (s.xg g).txSeq 0 true true false m] ∧
        (u.sp p).free = v.clk.now + s.wireTime p (s.ferryLen g 16) ∧ u.qf = s.qf ∧ u.dram = s.dram) ∧
    (∀ q x, s.servedBy p = [q] → (s.sq q).back = true → (s.sp p).commit = none → (s.isFerry p = true → (s.xg g).ctl = []) →
      v.eligible p q v.clk.now = true → v.nextUnit p q = some x →
      Makes (.unitChoice p t) s fun u => (u.sp p).cls = s.qClass q ∧ (u.sp p).free = v.clk.now + s.wireTime p x.len ∧
        (u.sp p).commit = none ∧
        (s.isFerry p = true → (u.xg g).txSeq = ((s.xg g).txSeq + 1) % 65536 ∧
          ((u.xg g).retry.map fun r => (r.seq, r.q)) = ((s.xg g).retry.map fun r => (r.seq, r.q)) ++ [((s.xg g).txSeq, q)]))

/-- The scheduler's wheel, windows and gate lists (R303, R309, R312 to R317): a slot that comes frees a queue whose debt is paid; as a
window or an entry begins or ends, the gates are as the windows since the last tick, or the oper list at the time, have them, and a
commitment whose unit may no longer start falls away; a commit is checked and sets the instant of the swap; a cancel
drops it; the swap makes the admin list the oper list. What it takes from a reading of the spec is the model's choice (log 21). -/
def Obligations.EgressLists : Prop :=
  ∀ (s : State) (p t : Nat) (f : Iface), p < 8 →
    let v := s.at_ t
    (∀ q x w, s.sch.queues = [(q, x)] → x.wheel = some w → w ≤ v.clk.now → 0 ≤ v.balanceAt q v.clk.now →
      Makes (.wheelSlot t) s fun u => (u.sq q).wheel = none ∧ (u.sq q).bal = v.balanceAt q v.clk.now ∧ u.qf = s.qf ∧ u.regs = s.regs) ∧
    (∀ q, (s.sp p).commit = some q → v.eligible p q v.clk.now = false → ∀ i ∈ [Instr.gateWindow p t, .gateEntry p t],
      Makes i s fun u => u = v.setSp p { s.sp p with commit := none }) ∧
    (((s.sp p).commit.all fun q => v.eligible p q v.clk.now) = true → ∀ i ∈ [Instr.gateWindow p t, .gateEntry p t],
      Makes i s fun u => u = v ∧ ∀ c wire,
        u.gateOk p c u.clk.now wire = (if s.compat p then s.listPermits p c v.ptpNow else c = 0 || s.windows p c = [] ||
          (s.windows p c).any fun w =>
            let o := max s.clk.now t - s.clk.lastTick.getD 0
            w.1 ≤ o && o < w.2 && o + wire ≤ w.2)) ∧
    (∀ x, (s.sp p).swap = some x → s.pendingList p = true → x ≤ v.ptpNow → Makes (.listSwap p t) s fun u =>
      u.operBank p = 1 - s.operBank p ∧ (u.sp p).operLen = s.clLen p ∧ (u.sp p).operCycle = s.clCycle p ∧
        (u.sp p).operBase = s.clBase p ∧ (u.sp p).swap = none ∧ u.pendingList p = false ∧ bit (u.reg Adr.SCH_EVT) 2 = true) ∧
    (let n := s.fld (Adr.SCH_P_CL_CTL p) 0 6
     let c := s.commitCode p
     s.pendingList p = false → s.writable f (Adr.SCH_P_CL_CTL p) (BitVec.ofNat 32 (n + 256)) →
      (c = Code.done → Makes (.commit p f) s fun u => u.pendingList p = true ∧ u.fld (Adr.SCH_P_CL_CTL p) 16 8 = 0 ∧
        (u.sp p).swap = some (s.swapAt p (max (s.clChg p) s.ptpNow)) ∧ u.operBank p = s.operBank p) ∧
      (c ≠ Code.done → Makes (.commit p f) s fun u => u.pendingList p = false ∧ u.fld (Adr.SCH_P_CL_CTL p) 16 8 = c ∧
        u.sch = s.sch ∧ bit (u.reg Adr.SCH_EVT) 3 = true)) ∧
    (s.pendingList p = true →
      s.writable f (Adr.SCH_P_CL_CTL p) (BitVec.ofNat 32 (s.fld (Adr.SCH_P_CL_CTL p) 0 6 + 512)) →
      Makes (.cancel p f) s fun u => u.pendingList p = false ∧ (u.sp p).swap = none ∧ OnlyRegs { s with sch := u.sch } u
        [Adr.SCH_P_CL_CTL p])

/-- Packets between Ferry links (R333 to R335): the packet expected is accepted and acknowledged, a repeated one is acknowledged
again, a bad one is answered with a NAK; an acknowledgement shortens the retry list; a NAK or a timeout takes the list back from
its SEQ, and one replay too many takes the link down. What it takes from a reading of the spec is the model's choice (log 20). -/
def Obligations.FerryPackets : Prop :=
  ∀ (s : State) (g : Nat), s.ferryUp g = true →
    let x := s.xg g
    (∀ k, pktValid k = true → pktCrcOk k = true →
      (sdiff 16 (pktSeq k) x.rxSeq < 0 → Makes (.pkt g k) s fun u => u = s.emit (.ferryAck g ((x.rxSeq + 65535) % 65536))) ∧
      (pktSeq k = x.rxSeq → pktType k = 1 → (k.payload.getD 0 0).toNat = 1 → k.payload.length = 16 → s.hasEvent (0xD0 + g) = true →
        Makes (.pkt g k) s fun u => (u.xg g).rxSeq = (x.rxSeq + 1) % 65536 ∧ s.sent ++ [.ferryAck g x.rxSeq] <+: u.sent ∧
          u.reg (Adr.XCV_BC_RX g 0) = BitVec.ofNat 32 (leNat (k.payload.take 4)) ∧ 0 < tget 0 u.evts (0xD0 + g)) ∧
      (pktSeq k = x.rxSeq → pktType k = 0 → s.rxEn g (pktCh k) = false → Makes (.pkt g k) s fun u =>
        (u.xg g).rxSeq = (x.rxSeq + 1) % 65536 ∧ s.sent ++ [.ferryAck g x.rxSeq] <+: u.sent ∧ Counted s u (Adr.XCV_CNT_RXDROP g))) ∧
    (∀ k, (pktValid k && pktCrcOk k) = false → x.nak = none → Makes (.pkt g k) s fun u =>
      u.xg g = { x with nak := some (x.rxSeq, s.clk.now) } ∧ u.sent = s.sent ++ [.ferryNak g x.rxSeq] ∧
        Counted s u (Adr.XCV_CNT_CRCERR g) ∧ u.qf = s.qf) ∧
    (∀ a, (x.retry.filter fun e => sdiff 16 e.seq a ≤ 0) ≠ [] → sdiff 16 a x.txSeq < 0 → Makes (.ack g a) s fun u =>
      (u.xg g).retry = x.retry.filter (fun e => !(sdiff 16 e.seq a ≤ 0)) ∧ (u.xg g).replays = 0 ∧ (u.xg g).txSeq = x.txSeq) ∧
    (∀ a i, (i = .nak g a ∨ (i = .replayTmo g ∧ x.retry.head?.map (·.seq) = some a)) →
      (x.replays < s.fld (Adr.XCV_LINK g) 16 8 → Makes i s fun u =>
        (u.xg g).retry = x.retry.filter (fun e => !(0 ≤ sdiff 16 e.seq a)) ∧ (u.xg g).txSeq = a % 65536 ∧
          (u.xg g).replays = x.replays + 1 ∧ (u.xg g).st = 6 ∧ bit (u.reg (Adr.XCV_EVT g)) 3 = true) ∧
      (s.fld (Adr.XCV_LINK g) 16 8 ≤ x.replays → s.roomAt (24 + g) → Makes i s fun u =>
        (u.xg g).st = 0 ∧ (u.xg g).replays = 0 ∧ (u.xg g).retry = x.retry ∧ Reported u (24 + g) 4 0 (target 7 g) ∧
          bit (u.reg (Adr.XCV_EVT g)) 4 = true ∧ bit (u.reg (Adr.XCV_EVT g)) 1 = true))

/-- Credits and the back-channel of a Ferry link (R336, R338, R339): a CREDIT block sets its channel's limit; each channel enabled
for receiving sends its limit; a key request reaches its stream and raises its event, one that names nothing is counted. -/
def Obligations.FerryCredits : Prop :=
  ∀ (s : State) (g : Nat), s.ferryUp g = true →
    (∀ ch limit, ch < 64 → Makes (.credit g ch limit) s fun u =>
      u = s.setTx g ch { s.txChan g ch with limit := limit % 2 ^ 24 }) ∧
    (Makes (.creditSend g) s fun u => u.sent = s.sent ++ ((List.range 64).filter (s.rxEn g)).map (fun ch =>
      Msg.ferryCredit g ch ((s.fld (Adr.XCV_RXCH g ch) 16 16 + (s.rxChan g ch).grown) % 2 ^ 24)) ∧ u.regs = s.regs ∧ u.qf = s.qf) ∧
    (∀ n, n < 4 → s.flag (Adr.FCT_S_CTL n) 0 = true → s.flag (Adr.XCV_BC_CTL g) 0 = true → Makes (.keyReq g n) s fun u =>
      (u.fs n).keyAsked = true ∧ bit (u.reg (Adr.XCV_EVT g)) 6 = true ∧ u.evts = (s.occur (0xD0 + g)).evts ∧
        u.reg (Adr.XCV_BC_RX g 1) = BitVec.ofNat 32 n) ∧
    (∀ n, 2 ≤ n % 65536 / 16384 → Makes (.keyReq g n) s fun u => OnlyRegs s u [Adr.XCV_CNT_BCBAD g, Adr.XCV_EVT g] ∧
      Counted s u (Adr.XCV_CNT_BCBAD g) ∧ bit (u.reg (Adr.XCV_EVT g)) 7 = true)

/-- Ethernet ports and transmit filters (R10, R329, R341, R342): a port comes up and goes down as its status says; a frame with a
bad FCS is counted and dropped; a frame for the port that no filter names enters the default queue as one packet, and one that no queue
takes is counted as received and as dropped; a transmit filter within
its limits is written. What it takes from a reading of the spec is the model's choice (log 20). -/
def Obligations.EthernetPorts : Prop :=
  ∀ (s : State) (e : Nat), s.ethOn e = true →
    let g := e / 2
    let i := e % 2
    (Makes (.ethUp e) s fun u => OnlyRegs s u [Adr.XCV_E_STAT g i] ∧
      u.reg (Adr.XCV_E_STAT g i) = BitVec.ofNat 32 (3 + 4 * b2n (s.flag (Adr.XCV_E_CTL g i) 2))) ∧
    (∀ lock fec lf rf, Makes (.ethDown e lock fec lf rf) s fun u => OnlyRegs s u [Adr.XCV_E_STAT g i, Adr.XCV_EVT g] ∧
      u.reg (Adr.XCV_E_STAT g i) = BitVec.ofNat 32 (2 * b2n lock + 4 * b2n fec + 8 * b2n lf + 16 * b2n rf) ∧
      (s.ethUp e = true → bit (u.reg (Adr.XCV_EVT g)) 8 = true)) ∧
    (∀ fr : EthFrame, s.ethUp e = true → fr.uncorr = 0 →
      (fr.fcsOk = false → Makes (.ethFrame e fr) s fun u => OnlyRegs s u [Adr.XCV_E_CNT_FEC g i, Adr.XCV_E_CNT_FCSERR g i] ∧
        Counted s u (Adr.XCV_E_CNT_FCSERR g i)) ∧
      (fr.fcsOk = true → (ethBody fr.bytes).1 ≠ 0x8808 → fr.bytes.length + 4 ≤ s.ethMtu e + 18 →
        (fr.bytes.take 6 = s.ethMac e ∨ ethShared.contains (fr.bytes.take 6) = true) → s.isPtp e fr.bytes = false →
        udpOf fr.bytes = none → s.fld (Adr.XCV_E_RXQ g i) 0 12 = 0 → Makes (.ethFrame e fr) s fun u =>
          OnlyRegs s u [Adr.XCV_E_CNT_FEC g i, Adr.XCV_E_CNT_RXF g i, Adr.XCV_E_CNT_RXDROP g i] ∧
            Counted s u (Adr.XCV_E_CNT_RXF g i) ∧ Counted s u (Adr.XCV_E_CNT_RXDROP g i)) ∧
      (fr.fcsOk = true → (ethBody fr.bytes).1 ≠ 0x8808 → fr.bytes.length + 4 ≤ s.ethMtu e + 18 →
        (fr.bytes.take 6 = s.ethMac e ∨ ethShared.contains (fr.bytes.take 6) = true) → s.isPtp e fr.bytes = false →
        udpOf fr.bytes = none →
        let q := s.fld (Adr.XCV_E_RXQ g i) 0 12
        let x := s.queue q
        let words := ceilDiv fr.bytes.length 32
        8 ≤ q → s.qRefuse q = none → x.resting = true → x.pkts = [] → x.tail % 32 = 0 → s.qNoSpill q = true → s.qLimit q = 0 →
        0 < words → x.words.length + words ≤ s.qHead q → x.tail / 32 + words ≤ x.base + 2 ^ 26 →
        Makes (.ethFrame e fr) s fun u => (u.queue q).tail = x.tail + 32 * words ∧ (u.queue q).pkts =
            [⟨1 + g, x.tail, fr.bytes.length, 0, x.tail + 32 * words, none, s.strictFence .none, false, false, false, false, 0, 0⟩] ∧
          (∀ k, k ≠ q → u.queue k = s.queue k) ∧ Counted s u (Adr.XCV_E_CNT_RXF g i) ∧
          u.reg (Adr.XCV_E_CNT_RXDROP g i) = s.reg (Adr.XCV_E_CNT_RXDROP g i) ∧ u.dram = s.dram)) ∧
    ∀ h lane v f, h < 4 → lane < 4 → s.writable f (Adr.XCV_TX_FIR h lane) v → Makes (.xcvTxFir h lane v f) s fun u =>
      u = s.setReg (Adr.XCV_TX_FIR h lane) (v &&& regMask (Adr.XCV_TX_FIR h lane))

/-- The time unit under the network's discipline (R347, R348): a Sync of the selected time-transmitter gives the offset, which the
servo takes up or which steps the time; a two-step Sync waits for its Follow_Up; the first Announce selects its sender; a
message of another profile or domain is counted; the loss of the time-transmitter is HOLDOVER at the last frequency. What it
takes from a reading of the spec is the model's choice (log 23). -/
def Obligations.NetworkTime : Prop :=
  ∀ (s : State) (m : PtpMsg), s.ptpSrc = 0 →
    let v := s.at_ m.t
    let good := m.profile = s.ptpProfile ∧ m.domain = s.fld Adr.PTP_CTL 8 8
    let used (i : Instr) (t1 t2 : Nat) : Prop :=
      let off : Int := (t2 : Int) - t1 - s.ptp.mpd - s.ptpAsym
      Makes i s fun u => u.ptp.t1 = t1 ∧ u.ptp.t2 = t2 ∧ u.ptp.sync = none ∧ u.reg Adr.PTP_OFFSET = BitVec.ofNat 32 (sat32 off) ∧
        Counted s u Adr.PTP_CNT_SYNC ∧ u.ptp.good = (if off.natAbs ≤ s.fld Adr.PTP_LOCK 0 16 then sat 16 (s.ptp.good + 1) else 0) ∧
        (off.natAbs ≤ 1000000 → u.ptp.sum = s.ptp.sum + off ∧ u.ptp.freq = clampAbs s.ptpMaxAdj
          (Config.servoFreq (s.fld Adr.PTP_SERVO 0 8) (s.fld Adr.PTP_SERVO 8 8) off (s.ptp.sum + off))) ∧
        (1000000 < off.natAbs → s.flag Adr.PTP_CTL 6 = true →
          u.ptp.base = ((v.ptpNow : Int) - off).toNat ∧ u.ptp.at_ = v.clk.now ∧ u.ptp.freq = s.ptp.freq ∧ bit (u.reg Adr.PTP_EVT) 3 = true)
    (good → s.fromMaster m = true → m.twoStep = false → used (.sync m) ((m.time : Int) + m.corr).toNat (s.ptpAt m.t)) ∧
    (good → s.fromMaster m = true → m.twoStep = true → Makes (.sync m) s fun u =>
      u = { v with ptp := { s.ptp with sync := some (m.seq, s.ptpAt m.t, m.corr) } }) ∧
    (∀ t2 c, good → s.fromMaster m = true → s.ptp.sync = some (m.seq, t2, c) →
      used (.followUp m) ((m.time : Int) + c + m.corr).toNat t2) ∧
    (good → s.ptp.master = none → s.ptp.foreign = [] → Makes (.announce m) s fun u =>
      u.ptp.master = some (m.src, m.port) ∧ u.ptp.st = 2 ∧ u.ptp.good = 0 ∧ bit (u.reg Adr.PTP_EVT) 2 = true ∧
        u.reg Adr.PTP_GM_ID_LO = BitVec.ofNat 32 (leNat ((beBytes 8 m.src).take 4))) ∧
    (¬ good → ∀ i ∈ [Instr.sync m, .followUp m, .announce m, .delayResp m, .pdelayReq m, .pdelayResp m], Makes i s fun u =>
      OnlyRegs v u [Adr.PTP_CNT_BAD] ∧ Counted s u Adr.PTP_CNT_BAD) ∧
    ∀ a b, s.ptp.master = some (a, b) → Makes .announceTmo s fun u => u.ptp.master = none ∧ u.ptp.st = 4 ∧
      u.ptp.freq = s.ptp.freq ∧ u.ptp.base = s.ptp.base ∧ OnlyRegs { s with ptp := u.ptp } u [Adr.PTP_EVT] ∧ bit (u.reg Adr.PTP_EVT) 4 = true

/-- Delay measurement, the second pulse, and setting and reading the time (R346, R347, R352). What it takes from a reading of the
spec is the model's choice (log 23). -/
def Obligations.NetworkDelay : Prop :=
  ∀ (s : State) (m : PtpMsg) (t : Nat) (f : Iface) (w : Word),
    let v := s.at_ m.t
    let good := s.ptpSrc = 0 ∧ m.profile = s.ptpProfile ∧ m.domain = s.fld Adr.PTP_CTL 8 8
    let path (i : Instr) (d : Int) : Prop := Makes i s fun u =>
      u.ptp = { s.ptp with mpd := d, req := none, resp := none } ∧ u.reg Adr.PTP_MPD = BitVec.ofNat 32 (sat32 d)
    (∀ t3, good → s.ptpProfile = 0 → s.ptp.req = some (m.seq, t3) → m.mine = true → s.fromMaster m = true →
      path (.delayResp m) (((s.ptp.t2 : Int) - s.ptp.t1 + ((m.time : Int) - m.corr - t3)) / 2)) ∧
    (good → s.ptpProfile = 1 → Makes (.pdelayReq m) s fun u =>
      u = { v with sent := s.sent ++ [.ptp 3 m.seq (s.ptpAt m.t), .ptp 10 m.seq v.ptpNow] }) ∧
    (∀ t1, good → s.ptpProfile = 1 → s.ptp.req = some (m.seq, t1) → m.mine = true → s.ptp.resp = none →
      (m.twoStep = false → path (.pdelayResp m) (((s.ptpAt m.t : Int) - t1 - m.corr) / 2)) ∧
      (m.twoStep = true → Makes (.pdelayResp m) s fun u =>
        u = { v with ptp := { s.ptp with resp := some (m.seq, (s.ptpAt m.t : Int) - t1 + m.time - m.corr) } })) ∧
    (∀ t1 q x, good → s.ptpProfile = 1 → s.ptp.req = some (m.seq, t1) → m.mine = true → s.ptp.resp = some (q, x) →
      path (.pdelayResp m) ((x - m.time - m.corr) / 2)) ∧
    (s.ptpSrc = 0 → s.ethUp s.ptpPort = true → (s.ptpProfile = 1 ∨ s.ptp.master.isSome = true) →
      Makes (.delayReqSend t) s fun u =>
        u.sent = s.sent ++ [.ptp (1 + s.ptpProfile) s.ptp.nextSeq (s.at_ t).ptpNow] ∧
          u.ptp.req = some (s.ptp.nextSeq, (s.at_ t).ptpNow) ∧ u.ptp.nextSeq = (s.ptp.nextSeq + 1) % 65536 ∧ u.regs = s.regs) ∧
    (s.ptpSrc = 1 → Makes (.ppsIn t) s fun u => u = (s.at_ t).ptpSet (((s.at_ t).ptpNow + 500000000) / 1000000000 * 1000000000)) ∧
    (s.writable f Adr.PTP_SET_S_HI (w ||| 0x80000000) → Makes (.ptpSetGo f w) s fun u =>
      u.ptp.base = ((tget 0 s.holdW (holdKey f Adr.PTP_SET_S_LO)).toNat + 2 ^ 32 * bits w 0 16) * 1000000000 +
        (s.reg Adr.PTP_SET_NS).toNat ∧ u.ptp.at_ = s.clk.now ∧ u.dram = s.dram) ∧
    (s.readable Adr.PTP_TIME_NS → Makes (.ptpTimeNs f) s fun u => Returned u f (BitVec.ofNat 32 (s.ptpNow % 1000000000)) ∧
      u.ptp = { s.ptp with secs := s.ptpNow / 1000000000 % 2 ^ 48 } ∧ u.regs = s.regs)

/-- Descriptors of the DMA (R355 to R360, R363, R365): a doorbell sets TAIL; a descriptor is read at HEAD, checked and started once the
fence that it asks for is met, a FENCE_HOST being sent then (R38); a host source in a ring of the data memory moves to DRAM, its result is stored and HEAD goes on. What it takes from a reading of
the spec is the model's choice (log 24). -/
def Obligations.DmaDescriptors : Prop :=
  ∀ (s : State) (k : Nat) (f : Iface) (v : Word), k < 32 →
    let x := s.dch_ k
    (s.writable f (Adr.DMA_C_DB k) v → s.dmaSeq k = false →
      (v.toNat % 65536 + 65536 - x.head) % 65536 ≤ 2 ^ s.fld (Adr.DMA_C_RING_CFG k) 0 4 →
      Makes (.dmaCDb k v f) s fun u => u = s.setDma k { x with tail := v.toNat % 65536 }) ∧
    (s.writable f (Adr.DMA_C_GO k) v → s.fuse.m = true → s.dmaSeq k = false → x.shd = false → bit v 0 = true →
      (x.cur.isSome = true → Makes (.dmaCGo k v f) s fun u => u = s.setDma k { x with shd := true }) ∧
      (x.cur = none → x.halted = false → s.dmaOn k = true →
        let d := (List.range 8).map fun i => s.z (Adr.DMA_C_SHD k i)
        s.dmaCode k d = Code.done → s.dmaPreMet d false = true →
        Makes (.dmaCGo k v f) s fun u => (u.dch_ k).cur = some d ∧ (u.dch_ k).shd = false)) ∧
    (∀ words, s.fuse.m = false → s.dmaOn k = true → x.halted = false → x.cur = none → x.head ≠ x.tail →
      let fenced (v : State) (d : List Word) : State := if dPre d = 3 then v.readBack else v
      (s.ringLoc k = 2 →
        let d := s.dmemWords (s.ringAt k) 16
        (bit (dWord d 0) 0 = false → s.roomAt 8 → Makes (.descriptorRead k words) s fun u =>
          u.dch_ k = { x with halted := true, code := Code.notOwner } ∧ Reported u 8 2 1 0 ∧ bit (u.reg Adr.DMA_EVT) 2 = true) ∧
        (bit (dWord d 0) 0 = true → s.dmaCode k d = Code.done → s.dmaPreMet d false = true →
          (dSrcKind d ≠ 0 → Makes (.descriptorRead k words) s fun u => u = (fenced s d).setDma k { x with cur := some d, pos := 0 }) ∧
          (dSrcKind d = 0 → Makes (.descriptorRead k words) s fun u => (u.dch_ k).cur = some d ∧ u.dram = s.dram ∧
            u.sent = (fenced s d).sent ++ [.hostRead (dSrc d) (dLen d) (s.flag (Adr.DMA_C_CFG k) 3)])) ∧
        (bit (dWord d 0) 0 = true → s.dmaPreMet d false = false → Makes (.descriptorRead k words) s fun u => u = s)) ∧
      (let d := words.take 16
       s.ringLoc k = 0 → s.domRuns 21 = true → s.pcieUp = true → bit (dWord d 0) 0 = true → s.dmaCode k d = Code.done →
        s.dmaPreMet d false = true → dSrcKind d ≠ 0 → Makes (.descriptorRead k words) s fun u =>
          (u.dch_ k).cur = some d ∧ u.sent = (fenced (s.emit (.hostRead (s.ringAt k) 64 false)) d).sent)) ∧
    (∀ env d, x.cur = some d → s.dmaOn k = true → x.moved = none → dSrcKind d ≠ 2 → s.dmaPreMet d true = false →
      Makes (.descriptorComplete k env) s fun u => u = s) ∧
    (∀ env d, s.fuse.m = false → s.dmaOn k = true → s.ringLoc k = 2 → x.cur = some d → x.moved = none → dSrcKind d = 0 →
      dDstKind d = 1 → dCheck d = 1 → env.poison = false → s.dmaPreMet d true = true → s.dramCode 11 (dDst d) (dOut d (dLen d)) true = Code.done →
      let l := (List.range (dLen d)).map fun i => env.bytes.getD i 0
      let crc := BitVec.ofNat 32 (crc32c l)
      Makes (.descriptorComplete k env) s fun u =>
        u.dram = memWrite 0 s.dram (dDst d) (if dAppend d then l ++ leBytes 4 crc.toNat else l) ∧
        (u.dch_ k).cur = none ∧ (u.dch_ k).halted = x.halted ∧ (u.dch_ k).head = (x.head + 1) % 65536 ∧
        u.z (Adr.SEQ_DMEM ((s.ringAt k / 4 + 8) % 16384)) = 256 ∧ u.z (Adr.SEQ_DMEM ((s.ringAt k / 4 + 9) % 16384)) = crc ∧
        u.evts = (s.occur (0xB0 + k)).evts)

/-- Dropping, resetting and failures of DMA channels (R361, R366): a channel disabled while it works is dropped and stays BUSY until
its last request has returned; one that is idle is just disabled; RST of a channel that is not BUSY makes it fresh; a host read
that fails ends its descriptor and halts the channel. What it takes from a reading of the spec is the model's choice (log 24). -/
def Obligations.DmaControl : Prop :=
  ∀ (s : State) (k : Nat) (f : Iface), k < 32 →
    let x := s.dch_ k
    let ctl := Adr.DMA_C_CTL k
    (s.writable f ctl 0 → s.flag ctl 0 = true → x.moved = none →
      (s.dmaBusy k = false → Makes (.dmaCEnClear k f) s fun u => u.dma = s.dma ∧ u.flag ctl 0 = false ∧ OnlyRegs s u [ctl]) ∧
      (s.dmaBusy k = true → Makes (.dmaCEnClear k f) s fun u => (u.dch_ k).cur = none ∧ (u.dch_ k).drop = true ∧
        u.flag ctl 0 = false ∧ u.dmaOn k = false)) ∧
    (s.writable f Adr.DMA_CTL 0 → s.flag Adr.DMA_CTL 0 = true → Makes (.dmaCtlEnClear f) s fun u => u.flag Adr.DMA_CTL 0 = false ∧
      (k < s.nDma → s.flag ctl 0 = true → s.dmaBusy k = true → (u.dch_ k).cur = none ∧ (u.dch_ k).drop = true)) ∧
    (let v := BitVec.ofNat 32 (b2n (s.flag ctl 0) + 2)
     s.writable f ctl v →
      (s.dmaBusy k = false → Makes (.dmaCRst k f) s fun u => u.dch_ k = DmaChan.fresh ∧ u.dram = s.dram ∧
        ∀ i < 8, u.reg (Adr.DMA_C_SHD k i) = 0) ∧
      (s.dmaBusy k = true → Makes (.dmaCRst k f) s fun u => u = s.accErr f ctl true Code.notNow)) ∧
    (∀ timeout d, s.dmaOn k = true → x.cur = some d → dHost d = true → Makes (.hostReadFail k timeout) s fun u =>
      (u.dch_ k).cur = none ∧ (u.dch_ k).halted = true ∧
        (u.dch_ k).code = (if timeout then Code.timeout else Code.aborted) ∧ bit (u.reg Adr.DMA_EVT) 1 = true) ∧
    (Makes (.dmaBusyClear k) s fun u => u = s.setDma k { x with drop := false })

/-- R364: a descriptor that completes with another code than DONE halts the channel after its result is stored; while it is halted no
descriptor is read or run; RESUME restarts it at HEAD, and on a channel that is not halted it is discarded and latched. -/
def Obligations.DmaHalt : Prop :=
  ∀ (s : State) (k : Nat) (f : Iface) (words : List Word), k < 32 →
    let x := s.dch_ k
    let ctl := Adr.DMA_C_CTL k
    let v := BitVec.ofNat 32 (b2n (s.flag ctl 0) + 4)
    (s.fuse.m = false → s.dmaOn k = true → x.halted = false → x.cur = none → x.head ≠ x.tail → s.ringLoc k = 2 →
      let d := s.dmemWords (s.ringAt k) 16
      bit (dWord d 0) 0 = true → s.dmaCode k d ≠ Code.done → Makes (.descriptorRead k words) s fun u =>
        (u.dch_ k).halted = true ∧ (u.dch_ k).code = s.dmaCode k d ∧ (u.dch_ k).cur = none ∧
          (u.dch_ k).head = (x.head + 1) % 65536 ∧
          u.z (Adr.SEQ_DMEM ((s.ringAt k / 4 + 8) % 16384)) = BitVec.ofNat 32 (s.dmaCode k d)) ∧
    (x.halted = true → Makes (.descriptorRead k words) s fun u => u = s) ∧
    (s.fuse.m = true → x.halted = true → x.shd = false → x.cur = none → s.dmaSeq k = false → s.writable f (Adr.DMA_C_GO k) 1 →
      Makes (.dmaCGo k 1 f) s fun u => u = s.setDma k { x with shd := true }) ∧
    (s.writable f ctl v →
      (x.halted = true → s.fuse.m = false → Makes (.resume k f) s fun u => u = s.setDma k { x with halted := false, code := 0 }) ∧
      (x.halted = false → Makes (.resume k f) s fun u => u = s.accErr f ctl true Code.notNow))

/-- R390: a write of 1 to a bit of IC_PEND_SET sets the pending bit of a source that is present; while the source is active the bit
is held and is presented when the complete is written; the claim clears it. -/
def Obligations.SoftwarePending : Prop :=
  ∀ (s : State) (f : Iface) (v : Word) (n t : Nat) (fast : Bool), s.boot.done = true → n < 256 → t < 4 →
    (s.writable f (Adr.IC_PEND_SET (n / 32)) v → bit v (n % 32) = true → s.hasSource n = true →
      Makes (.icPendSet (n / 32) v f) s fun u => u.soft n = true ∧ (s.isActive n = false → u.isPending n = true) ∧
        ∀ k < 256, s.hasSource k = false ∨ k / 32 ≠ n / 32 → u.soft k = s.soft k) ∧
    (s.soft n = true → s.hasSource n = true → s.ic.active = [(n, t, fast)] → s.isPending n = false ∧
      (s.writable f (Adr.IC_CLAIM (b2n fast) t) (BitVec.ofNat 32 n) → Makes (.icComplete t fast (BitVec.ofNat 32 n) f) s fun u =>
        u.isPending n = true)) ∧
    (s.candidate t fast = some n → s.readable (Adr.IC_CLAIM (b2n fast) t) → Makes (.icClaim t fast f) s fun u => u.soft n = false)

/-- Claims, completes and messages (R387, R388, R391, R373): a claim returns the candidate and makes it active, or returns 0 and is
counted; a complete of the claimed source ends its activity, any other is recorded as an error; the endpoint's new state
shows in HST_PCIE_STAT, and a clear of Bus Master Enable or a PCIe reset takes it back. -/
def Obligations.Interrupts : Prop :=
  ∀ (s : State) (f : Iface) (t n : Nat) (fast : Bool) (v : Word), t < 4 →
    let a := Adr.IC_CLAIM (b2n fast) t
    (s.readable a →
      (s.candidate t fast = some n → Makes (.icClaim t fast f) s fun u => Returned u f (BitVec.ofNat 32 n) ∧
        u.ic.active = s.ic.active ++ [(n, t, fast)] ∧ OnlyRegs { s with ic := u.ic, rd := u.rd } u [Adr.IC_PEND_SET (n / 32)]) ∧
      (s.candidate t fast = none → Makes (.icClaim t fast f) s fun u => Returned u f 0 ∧ u.ic = s.ic ∧
        Counted s u Adr.IC_CNT_SPUR)) ∧
    (n < 256 → s.writable f a (BitVec.ofNat 32 n) →
      (s.ic.active = [(n, t, fast)] → Makes (.icComplete t fast (BitVec.ofNat 32 n) f) s fun u => u.ic.active = [] ∧
        u.reg Adr.IC_ERR = s.reg Adr.IC_ERR) ∧
      (s.isActive n = false → Makes (.icComplete t fast (BitVec.ofNat 32 n) f) s fun u => u.ic = s.ic ∧
        u.reg Adr.IC_ERR = BitVec.ofNat 32 (n + 256 * t + 1024 * b2n fast + 2048))) ∧
    (s.pcieUp = false → s.domUp 21 = true → Makes (.msixDelivery v) s fun u =>
      u = s.setReg Adr.HST_PCIE_STAT (v &&& regMask Adr.HST_PCIE_STAT)) ∧
    ((∀ x ∈ s.dma, x.2.cur.any dHost = false) →
      (Makes .busMasterEnableClear s fun u => u.pcieUp = false ∧ u.dma = s.dma ∧ OnlyRegs s u [Adr.HST_PCIE_STAT]) ∧
      (Makes .pcieReset s fun u => u.reg Adr.HST_PCIE_STAT = 0 ∧ u.dma = s.dma ∧ u.dram = s.dram ∧
        ∀ b, b ≠ Adr.HST_PCIE_STAT → u.reg b = if 0x3C000 ≤ b ∧ b < 0x3E000 then regReset s.fuse b else s.reg b)) ∧
    (∀ k x d, s.pcieUp = true → s.dma = [(k, x)] → x.cur = some d → dHost d = true → x.moved = none → s.fuse.m = false →
      s.ringLoc k = 2 → Makes .busMasterEnableClear s fun u => (u.dch_ k).halted = true ∧ (u.dch_ k).code = Code.aborted ∧
        (u.dch_ k).cur = none)

/-- Accesses of the host (R8, R9, R11, R13, R371, R374 to R376): plain writes, pairs and registers that a read changes; errors
latch; bursts on the management SPI; a write through BAR2. What it takes from a reading of the spec is the model's choice (log
30 and 31). -/
def Obligations.HostAccess : Prop :=
  ∀ (s : State) (f : Iface) (a be : Nat) (v : Word),
    (s.writable f a v → 0xA0000 ≤ a → a < 0xB0000 → Makes (.registerWrite f a [(15, v)]) s fun u => OnlyRegs s u [a] ∧ u.reg a = v) ∧
    (be ≠ 15 → Makes (.registerWrite f a [(be, v)]) s fun u => u = s.accErr f a true Code.badTarget) ∧
    (s.boot.done = true → s.readable a → regAcc a = some .rwl → 0x101000 ≤ a → Makes (.registerWrite f a [(15, v)]) s fun u =>
      u = s.accErr f a true Code.locked) ∧
    (∀ l : List (Nat × Word), 16 < l.length → Makes (.registerWrite .pcie a l) s fun u => u = s.accErr .pcie a true Code.tooLong) ∧
    (s.readable a → pairLo a = true → regAcc a ≠ some .wo → regAcc a ≠ some .rc → Makes (.pairLoRead f a) s fun u =>
      Returned u f (s.value a) ∧ tget 0 u.holdR (holdKey f a) = s.value (a + 4) ∧ u = { s with holdR := u.holdR, rd := u.rd }) ∧
    (a = Adr.HST_BAR2_BASE_HI → s.writable f a v → Makes (.pairHiWrite f a v) s fun u => u.reg a = v &&& regMask a ∧
      u.reg (a - 4) = tget 0 s.holdW (holdKey f (a - 4)) &&& regMask (a - 4) ∧ OnlyRegs s u [a, a - 4]) ∧
    (s.readable a → regAcc a = some .rc → Makes (.rcRead f a 1) s fun u => Returned u f (s.value a) ∧
      u.reg a = BitVec.ofNat 32 (s.afterRead a) ∧ OnlyRegs { s with rd := u.rd } u [a]) ∧
    (s.writable f Adr.HST_ACC_ERR v → bit v 0 = true → Makes (.hstAccErr f v) s fun u =>
      u.flag Adr.HST_ACC_ERR 0 = false ∧ u.fld Adr.HST_ACC_ERR 16 8 = 0 ∧ u.reg Adr.HST_ACC_ERR_ADDR_LO = 0 ∧
        u.reg Adr.HST_ACC_ERR_ADDR_HI = 0) ∧
    (a % 4 = 0 → s.writable .mspi a v → 0xA0000 ≤ a → a < 0xB0000 →
      (Makes (.mspiWrite a [v] 0) s fun u => OnlyRegs s u [a] ∧ u.reg a = v) ∧
      (Makes (.mspiRead a 1) s fun u => tget? u.rd (ifIdx .mspi) = some [s.reg a])) ∧
    (a % 4 ≠ 0 → Makes (.mspiWrite a [v] 0) s fun u => OnlyRegs s u [Adr.HST_MSPI_CNT_ABORT] ∧ Counted s u Adr.HST_MSPI_CNT_ABORT) ∧
    (∀ l, s.boot.done = true → s.domUp 21 = true → a < 2 ^ s.fld Adr.HST_BAR2_CFG 0 6 →
      let at_ := s.pair Adr.HST_BAR2_BASE_LO Adr.HST_BAR2_BASE_HI + a
      s.dramCode 12 at_ l.length true = Code.done → Makes (.bar2Access a (.write l)) s fun u => u.dram = memWrite 0 s.dram at_ l) ∧
    (∀ k ns, 40 ≤ ns → k ∈ s.running 0 → Makes (.keyreqN ns) s fun u => (u.fs k).keyAsked = true ∧ u.regs = s.regs)

/-- Host requests that apply at once (R16, R378, R381, R382): a request that fails its checks is answered with its code and changes
nothing; one that passes has its effect and is answered, or waits in its window for what it has begun. What it takes from a
reading of the spec is the model's choice (log 29). -/
def Obligations.Requests : Prop :=
  ∀ (s : State) (r : Req), s.takesRequest r →
    let ok (op : Nat) : Prop := (s.asked op r).reqCode r.w = Code.done
    let waits (u : State) (k : Wait) : Prop := (tget? u.win r.w).map (·.wait) = some k ∧ bit (u.reg (Adr.HST_W_RESP r.w)) 16 = true
    let done (u : State) : Prop := ∃ a, Answered u r.w Code.done r.tag a
    let arg (i : Nat) : Nat := (r.args.getD i 0).toNat
    let kind := r.target % 65536 / 4096
    let n := r.target % 65536 % 4096
    (∀ x ∈ requestOps r, ¬ ok x.2 → Makes x.1 s fun u => Answered u r.w ((s.asked x.2 r).reqCode r.w) r.tag 0 ∧
      u.dram = s.dram ∧ u.qf = s.qf ∧ u.seq = s.seq ∧ u.fct = s.fct ∧ u.cod = s.cod ∧ u.dom = s.dom) ∧
    (ok 0x00 → Makes (.requestNop r) s fun u => Answered u r.w Code.done r.tag 0 ∧ u.dram = s.dram ∧ u.seq = s.seq) ∧
    (∀ back, ok 0x01 →
      let mask := r.args.getD 1 0
      let jobs := if arg 0 = 2 then s.fenceJobs mask else []
      (s.fenceMet (arg 0) jobs = true → Makes (.fence r back) s fun u =>
        if arg 0 = 2 then Answered u r.w (s.fenceAns mask).1 r.tag (s.fenceAns mask).2 else Answered u r.w Code.done r.tag 0) ∧
      (s.fenceMet (arg 0) jobs = false → back = false ∨ arg 0 ≠ 3 → Makes (.fence r back) s fun u =>
        waits u (.fence (arg 0) (arg 1) jobs)) ∧
      (s.fenceMet (arg 0) jobs = false → arg 0 = 3 → Makes (.fence r true) s fun u =>
        Answered u r.w Code.done r.tag 0 ∧ u.hostOpen = none)) ∧
    (ok 0x12 → Makes (.keyPicture r) s fun u => done u ∧ (kind = 1 → (u.fs n).keyAsked = true) ∧ (kind = 2 → (u.cx n).keyAsked = true)) ∧
    (ok 0x20 → Makes (.retire r) s fun u => done u ∧ (kind = 4 → u.isRetired n = true) ∧ (kind = 5 → (u.ce n).st = 5) ∧
      (kind = 8 → u.dk (n / 4) = ⟨1, n % 4, 0⟩)) ∧
    (ok 0x21 → Makes (.repair r) s fun u => done u ∧ ∃ x, fltUnit (r.target % 65536) = some x ∧ (u.fu x).st = 3 ∧ (u.fu x).auto = false) ∧
    (ok 0x22 → Makes (.retrain r) s fun u => done u ∧ (kind = 6 → (u.lg n).st = 0) ∧ (kind = 7 → (u.xg n).st = 0)) ∧
    (ok 0x30 → (s.domain n).phase = .stable → (s.domain n).st ≠ pstate (arg 0) → Makes (.power r) s fun u =>
      waits u (.power n) ∧ (u.domain n).target = pstate (arg 0) ∧ (u.domain n).phase ≠ .stable) ∧
    (ok 0x41 → Makes (.queueReset r) s fun u => waits u (.walk n) ∧
      u.queue n = { Queue.fresh with chain := (s.queue n).chain, walk := true }) ∧
    (ok 0x50 → Makes (.patchSubmit r) s fun u => waits u .patch ∧ (.patch r.w s.patchEnd
      (storedPatch (memRead 0 s.dram (arg 0 + 2 ^ 32 * arg 1) (arg 2)))) ∈ u.flops) ∧
    (ok 0x51 → Makes (.restart r) s fun u => u.boot = Boot.fresh ∧ u.dram = [] ∧ u.qf = [] ∧ u.win = [] ∧ u.flash = s.flash ∧
      u.ptp.base = s.ptpNow ∧ u.flt.ring = s.flt.ring) ∧
    (ok 0x60 → arg 0 % 2 = 1 →
      let l := (s.flt.ring.take (arg 0 / 256 % 256 + 1)).reverse
      s.dramCode 10 (arg 1 + 2 ^ 32 * arg 2) (l.flatMap FRec.bytes).length true = Code.done → Makes (.faultExport r) s fun u =>
      Answered u r.w Code.done r.tag l.length ∧ bit (u.reg Adr.FLT_EVT) 8 = true ∧
        u.dram = memWrite 0 s.dram (arg 1 + 2 ^ 32 * arg 2) (l.flatMap FRec.bytes)) ∧
    (ok 0x61 → Makes (.faultClear r) s fun u => Answered u r.w Code.done r.tag 0 ∧
      u.flt.valid = (s.flt.valid && !bit (r.args.getD 0 0) 0) ∧ u.flt.ring = (if bit (r.args.getD 0 0) 1 then [] else s.flt.ring)) ∧
    (ok 0x70 → Makes (.seqMail r) s fun u => waits u .mail ∧ u.evts = (s.occur 0xE2).evts ∧
      ∀ i < 14, u.z (Adr.SEQ_DMEM ((0xFF00 + 64 * r.w) / 4 + 2 + i)) = r.args.getD i 0)

/-- Requests that apply at a tick, and waits that end (R379, R381, R382, R443): the request waits with PEND, and takes the place of an
earlier one of its opcode and TARGET. At its tick, which carries out `State.tickReq` for every window whose request waits, a
STREAM_START and a STREAM_STOP ask for the enables of their stream's lists, a SET_RATE sets its registers and puts them in force, an
OPERATING_POINT enters overdrive once the voltage is reached, which it has raised at once, or leaves it, and a SET_TICK sets the
source and the rate and waits for the first tick of that source. The microcode's answer, and a timeout, complete the request that
waits for them. What it takes from a reading of the spec is the model's choice (log 29). -/
def Obligations.WaitingRequests : Prop :=
  ∀ (s : State) (r : Req), s.takesRequest r →
    let kind := r.target % 65536 / 4096
    let n := r.target % 65536 % 4096
    let arg (i : Nat) : Word := r.args.getD i 0
    let later (op : Nat) (i : Instr) (P : State → State → Prop) : Prop :=
      (s.asked op r).reqCode r.w = Code.done → (s.asked op r).pendingLike r.w op (r.target % 65536) = [] → Makes i s fun u =>
        tget? u.win r.w = some ⟨r.tag % 256, .tick⟩ ∧ u.fld (Adr.HST_W_RESP r.w) 16 2 = 3 ∧ P u (u.tickReq r.w)
    let done (v : State) : Prop := Answered v r.w Code.done r.tag 0
    let field (v : State) (a : Nat) (w : Nat) (x : Word) : Prop :=
      v.fld a 0 w = (if x = allOnes then s.fld a 0 w else x.toNat) ∧ (x = allOnes ∨ v.inForce a = v.reg a)
    later 0x10 (.streamStart r) (fun _ v => done v ∧
      v.seq.enables = s.seq.enables ++ (s.boundLists (kind - 1) n).map fun l => (l, true)) ∧
    later 0x11 (.streamStop r) (fun _ v => done v ∧
      v.seq.enables = s.seq.enables ++ (s.boundLists (kind - 1) n).map fun l => (l, false)) ∧
    later 0x13 (.setRate r) (fun _ v => done v ∧ (kind = 1 → field v (Adr.FCT_S_SLOT n) 32 (arg 0)) ∧
      (kind = 2 → field v (Adr.COD_C_RATE n) 24 (arg 0) ∧ field v (Adr.COD_C_VBV n) 28 (arg 1) ∧
        field v (Adr.COD_C_SLICE n) 24 (arg 2))) ∧
    later 0x31 (.operatingPoint r) (fun u v =>
      (arg 0 = 1 → s.thm.od = false → s.thm.odRaised = false → u.thm.odRaised = true ∧ u.vdd = s.odMv ∧
        u.sent = s.sent ++ [.avs s.odMv] ∧ tget? v.win r.w = some ⟨r.tag % 256, .tick⟩) ∧
      (arg 0 = 1 → s.thm.od = false → s.thm.odRaised = true → s.thm.odReached = true → v.thm.od = true ∧ done v) ∧
      (arg 0 = 0 → v.thm.od = false ∧ done v)) ∧
    later 0x40 (.setTick r) (fun _ v => v.reg Adr.GLB_TICK_CTL = arg 0 ∧ v.reg Adr.GLB_TICK_RATE = arg 1 ∧
      tget? v.win r.w = some ⟨r.tag % 256, .source⟩) ∧
    (∀ x ∈ requestOps r, opTick x.2 = true → (s.asked x.2 r).reqCode r.w = Code.done →
      ((s.asked x.2 r).pendingLike r.w x.2 (r.target % 65536) = [] → Makes x.1 s fun u =>
        tget? u.win r.w = some ⟨r.tag % 256, .tick⟩ ∧ u.fld (Adr.HST_W_RESP r.w) 16 2 = 3) ∧
      (∀ w y, (s.asked x.2 r).pendingLike r.w x.2 (r.target % 65536) = [w] → tget? s.win w = some y → y.tag < 256 →
        s.flag (Adr.HST_W_CTL w) 1 = false → Makes x.1 s fun u =>
          Answered u w Code.superseded y.tag 0 ∧ tget? u.win r.w = some ⟨r.tag % 256, .tick⟩)) ∧
    ∀ w tag v, tag < 256 → s.flag (Adr.HST_W_CTL w) 1 = false →
      (tget? s.win w = some ⟨tag, .mail⟩ →
        (bits v 0 8 < 0x14 → Makes (.hstWSeqans w v) s fun u => Answered u w (bits v 0 8) tag (bits v 8 24)) ∧
        (Makes (.seqMailTimeout w) s fun u => Answered u w Code.timeout tag 0)) ∧
      (∀ k m jobs, tget? s.win w = some ⟨tag, .fence k m jobs⟩ → Makes (.fenceRequestTimeout w) s fun u => Answered u w Code.timeout tag 0)

/-- The fault collector (R446 to R454, R457, R462, R463): a report of a block and a unit that are
present enters the block's buffer; injection needs its fuse and strap; a
write of FLT_STAT clears what it names; the end of a test decides its record, a timeout decides it LASTING. What it takes from a
reading of the spec is the model's choice (log 25). -/
def Obligations.FaultCollector : Prop :=
  ∀ (s : State) (f : Iface) (v : Word) (rep : Report),
    (let there := s.injBlockOk rep.block && s.unitThere rep.unit
     (there = false → Makes (.faultReport rep) s fun u => u = s) ∧
     (there = true → fltUnit rep.unit = none → s.roomAt rep.block → Makes (.faultReport rep) s fun u =>
      Reported u rep.block rep.code rep.kind rep.unit ∧ u = { s with flt := u.flt })) ∧
    (s.writable f Adr.FLT_STAT v → Makes (.fltStatClear f v) s fun u => u = { s with flt := u.flt } ∧
      u.flt.valid = (s.flt.valid && !bit v 0) ∧ u.flt.pin = (s.flt.pin && !bit v 1) ∧ u.flt.ring = s.flt.ring ∧ u.flt.first = s.flt.first) ∧
    (s.writable f Adr.FLT_INJ_CTL v →
      (s.injUnlocked = false → Makes (.faultInject f v) s fun u => u = s.accErr f Adr.FLT_INJ_CTL true Code.locked) ∧
      (s.injUnlocked = true → bit v 8 = true → s.flt.armed = false → s.injBlockOk (bits v 0 8) = true → injCodeOk (bits v 16 16) = true →
        s.roomAt (bits v 0 8) → fltUnit (injUnit (bits v 0 8) (bits v 16 16) (s.reg Adr.FLT_INJ_ARG).toNat) = none →
        Makes (.faultInject f v) s fun u => u.flt.armed = true ∧
          ((tget [] u.flt.bufs (bits v 0 8)).getLast?.map fun x => (x.code, x.inj, x.force)) = some (bits v 16 16, true, bit v 9))) ∧
    (∀ x, s.flt.tests = [x] → s.flag Adr.FLT_CTL 0 = false →
      (∀ res, x.overTh = false → s.testOutcome x res = .transient → Makes (.selfTestDone x.unit res) s fun u =>
        u.flt.tests = [] ∧ u.flt.ring.head? = some { x with outcome := .transient } ∧ u.regs = s.regs) ∧
      (fltUnit x.unit = none → Makes .testTimeout s fun u => u.flt.tests = [] ∧
        u.flt.ring.head? = some { x with outcome := .lasting } ∧ Counted s u Adr.FLT_CNT_LASTING ∧ bit (u.reg Adr.FLT_EVT) 2 = true))

/-- Repairs, the repair log and the flash (R410, R420, R455, R456): due automatic attempts start; a failed attempt is marked, a
repaired codec engine returns at the next tick; a log entry is written, or the full log says so; operations of the host wait in
turn, and one that ends has read, programmed or erased. What it takes from a reading of the spec is the model's choice (log 25
and 27). -/
def Obligations.RepairsAndFlash : Prop :=
  ∀ (s : State) (f : Iface),
    (∀ n, s.flag Adr.FLT_CTL 1 = true → n < 23 → s.repairable n = true → (s.fu n).attempts < 3 →
      (s.fu n).since + s.fld Adr.FLT_WIN 16 16 ≤ s.clk.count → Makes .autoRepair s fun u =>
        (u.fu n).st = 3 ∧ (u.fu n).auto = true ∧ (u.fu n).attempts = (s.fu n).attempts + 1 ∧ u.regs = s.regs) ∧
    (∀ n, n < 7 → s.hasUnit n = true → (s.fu n).st = 3 →
      (Makes (.repairDone (unitTarget n) false) s fun u => (u.fu n).st = 4 ∧ (u.fu n).since = s.clk.count ∧
        OnlyRegs { s with flt := u.flt } u [Adr.FLT_EVT] ∧ bit (u.reg Adr.FLT_EVT) 6 = true) ∧
      (5 ≤ n → Makes (.repairDone (unitTarget n) true) s fun u => (u.fu n).st = 0 ∧ (u.fu n).attempts = 0 ∧
        u.cod = { s.cod with back := s.cod.back ++ [n - 5] } ∧ u.evts = (s.occur 0xE1).evts)) ∧
    (∀ e l, s.flt.logq = e :: l → s.flops = [] →
      let used := s.logUsed s.boot.logOff (s.boot.logLen / 16)
      (used < s.boot.logLen / 16 → Makes .logAppend s fun u => u.flt.logq = l ∧ u.flops = [.log (s.logBytes e)] ∧
        u.flt.logSeq = (s.flt.logSeq + 1) % 2 ^ 32 ∧ u.regs = s.regs) ∧
      (s.boot.logLen / 16 ≤ used → Makes .logAppend s fun u => u.flt.logq = l ∧ u.flops = [] ∧ bit (u.reg Adr.FLT_EVT) 7 = true)) ∧
    (∀ x ∈ [(Instr.read f, 0), (.program f, 1), (.erase4k f, 2), (.erase64k f, 3)],
      s.writable f Adr.BOOT_FL_OP (BitVec.ofNat 32 x.2) →
      (s.flCode x.2 = Code.done → Makes x.1 s fun u => ∃ l, u.flops = s.flops ++
        [.host x.2 (s.reg Adr.BOOT_FL_ADDR).toNat (s.fld Adr.BOOT_FL_LEN 0 13) l] ∧ u.flash = s.flash ∧ u.regs = s.regs) ∧
      (s.flCode x.2 ≠ Code.done → Makes x.1 s fun u => u.flops = s.flops ∧ u.fld Adr.BOOT_FL_RES 0 8 = s.flCode x.2 ∧
        OnlyRegs s u [Adr.BOOT_FL_RES])) ∧
    (∀ a n l rest,
      (s.flops = .host 0 a 4 l :: rest → Makes (.flashOpDone true) s fun u => u.flops = rest ∧ u.flash = s.flash ∧
        u.reg (Adr.BOOT_FL_BUF 0) = BitVec.ofNat 32 (leNat (s.flRead a 4)) ∧ u.fld Adr.BOOT_FL_RES 0 8 = 0) ∧
      (s.flops = .host 1 a n l :: rest → Makes (.flashOpDone true) s fun u => u.flops = rest ∧
        u.flash = memWrite 0xFF s.flash a (((s.flRead a l.length).zip l).map fun x => x.1 &&& x.2)) ∧
      (s.flops = .host 2 a n l :: rest → Makes (.flashOpDone true) s fun u => u.flops = rest ∧
        u.flash = memWrite 0xFF s.flash a (List.replicate 4096 0xFF) ∧ u.fld Adr.BOOT_FL_RES 0 8 = 0) ∧
      (s.flops = .host 3 a n l :: rest → Makes (.flashOpDone true) s fun u => u.flops = rest ∧
        u.flash = memWrite 0xFF s.flash a (List.replicate 65536 0xFF) ∧ u.fld Adr.BOOT_FL_RES 0 8 = 0))

/-- Power domains (R68, R423 to R427, R429): a domain that has drained enters its state; a drain that takes too long is counted; at
the end of the transition the domain is in its target state, which OFF leaves with reset registers; a wake of a Landing group
asks for ON where it may. What it takes from a reading of the spec is the model's choice (log 26). -/
def Obligations.PowerTransitions : Prop :=
  ∀ (s : State) (d g : Nat),
    let x := s.domain d
    (x.phase = .draining → Makes (.drainEnd d) s fun u => u = s.setDomain d { x with phase := .entering }) ∧
    (x.phase = .draining → (∀ k < s.nDma, ∀ c, (s.dch_ k).cur = some c → s.dmaInDomain k c d = false) → Makes (.drainTimeout d) s fun u =>
      u.domain d = { x with phase := .entering } ∧ Counted s u Adr.PWR_CNT_DRAINABORT ∧ bit (u.reg Adr.PWR_EVT) 1 = true ∧ u.dma = s.dma) ∧
    (x.phase = .entering ∨ x.phase = .exiting → x.pend = none → x.by_ = some .seq → Makes (.transDone d) s fun u =>
      (u.domain d).st = x.target ∧ (u.domain d).phase = .stable ∧ (u.domain d).last = Code.done ∧ (u.domain d).lastBy = 1 ∧
        bit (u.reg Adr.PWR_EVT) 0 = true ∧ 0 < tget 0 u.evts 0xE3 ∧
        (x.target = .off → x.st ≠ .off → 3 ≤ d → d ≤ 9 → ∀ a, domOf a = d → u.reg a = regReset s.fuse a)) ∧
    (g < s.nLnd → (s.domain (14 + g)).st ≠ .on →
      (s.flag Adr.PWR_WAKE g = true → (s.domain (14 + g)).phase = .stable → Makes (.wake g) s fun u =>
        (u.domain (14 + g)).target = .on ∧ (u.domain (14 + g)).phase = .exiting ∧ (u.domain (14 + g)).by_ = some .wake ∧
          bit (u.reg (Adr.LND_EVT g)) 9 = true ∧ bit (u.reg Adr.PWR_EVT) 2 = true) ∧
      (s.flag Adr.PWR_WAKE g = false → Makes (.wake g) s fun u => u.dom = s.dom ∧
        OnlyRegs s u [Adr.LND_EVT g, Adr.PWR_EVT] ∧ bit (u.reg (Adr.LND_EVT g)) 9 = true))

/-- Clocks (R433): a PLL that loses lock leaves its clock domains on the fast internal oscillator and is reported; it relocks, and its
domains go back at a tick; the crystal's loss moves its clock domain until it returns. -/
def Obligations.Clocks : Prop :=
  ∀ (s : State) (n : Nat), s.roomAt 2 →
    (s.pll.lock.contains n = true → Makes (.pllUnlock n) s fun u => u.pll.lock = s.pll.lock.filter (· ≠ n) ∧
      (∀ c < 30, s.clkSrc c = 2 → s.pllNow c = n → u.clkSrc c = 0) ∧
      (∀ c < 30, ¬ (s.clkSrc c = 2 ∧ s.pllNow c = n) → u.clkSrc c = s.clkSrc c) ∧ Counted s u Adr.CLK_CNT_UNLOCK ∧
      bit (u.reg Adr.PWR_EVT) 4 = true ∧ Reported u 2 4 0 0) ∧
    (s.pll.lock.contains n = false → s.pll.xtal = true → Makes (.pllRelock n) s fun u =>
      u = { s with pll := { s.pll with lock := s.pll.lock ++ [n], back := s.pll.back ++ [n] } }) ∧
    (s.pll.xtal = true → s.pll.lock = [] → Makes .xtalLost s fun u => u.pll.xtal = false ∧ u.clkSrc 1 = 0 ∧
      Counted s u Adr.CLK_CNT_UNLOCK ∧ bit (u.reg Adr.PWR_EVT) 5 = true ∧ Reported u 2 5 0 0) ∧
    (Makes .xtalReturn s fun u => u.pll.xtal = true ∧ u.clkSrc 1 = 1 ∧ u.pll.lock = s.pll.lock ∧ u.regs = s.regs)

/-- Voltage, temperature and overdrive (R435, R437, R439, R442 to R444): the loop moves VDD_CORE by a step within its limits; a
reading of every sensor gives the junction temperature; each millisecond every engine's share follows it; an entry into
overdrive that the regulator does not reach is given up; the wear bins move on. What it takes from a reading of the spec is the
model's choice (log 26). -/
def Obligations.VoltageAndHeat : Prop :=
  ∀ (s : State),
    (∀ e, e.fault = false → e.reached = false → s.flag Adr.PWR_LOOP 0 = true → s.thm.avsHold = false → s.thm.od = false →
      s.thm.odRaised = false → e.reported < 1024 → 655 ≤ s.vdd → s.vdd ≤ 895 → Makes (.avsLoop e) s fun u =>
        u.fld Adr.PWR_AVS_STAT 16 10 = e.reported ∧
        u.vdd = (if e.margin < s.fld Adr.PWR_AVS_CFG 26 6 then s.vdd + 5
          else if s.fld Adr.PWR_AVS_CFG 26 6 + 4 < e.margin then s.vdd - 5 else s.vdd) ∧ OnlyRegs { s with thm := u.thm, sent := u.sent } u
            [Adr.PWR_AVS_STAT]) ∧
    (∀ tj : Int, s.fuse.m = false → 0 ≤ tj → tj < 95 → s.thm.shut = false → s.thm.bad = [] →
      Makes (.sensorRead (List.replicate 12 (some tj))) s fun u => u.thm = { s.thm with tj := tj } ∧
        u.fld Adr.THM_STAT 0 9 = tj.toNat ∧ u.fld Adr.THM_STAT 16 12 = 0xFFF ∧
        ∀ i < 12, u.reg (Adr.THM_SENS i) = BitVec.ofNat 32 (tj.toNat + 32768)) ∧
    (s.thm.od = false → (∀ e ∈ s.engines, s.duty e = 8) → s.thm.tj < 105 → Makes .thermalLoop s fun u =>
      u.thm = { s.thm with slow := false, throttle := false } ∧ (∀ e ∈ s.engines, u.duty e = 8) ∧ OnlyRegs { s with thm := u.thm } u
        [Adr.THM_DUTY]) ∧
    (s.thm.od = false → 115 ≤ s.thm.tj → s.thm.tj < 125 → (∀ e ∈ s.engines, s.thermClass e = 2) → Makes .thermalLoop s fun u =>
      (∀ e ∈ s.engines, u.duty e = 2) ∧ u.thm.slow = true ∧ u.thm.throttle = true ∧ Counted s u Adr.THM_CNT_SLOW) ∧
    (s.thm.odRaised = true → s.thm.odReached = false → s.thm.od = false → s.win = [] → Makes .odTimeout s fun u =>
      u.thm = { s.thm with odRaised := false } ∧ (s.thm.nominalMv < 1024 → u.vdd = s.thm.nominalMv) ∧
        u.sent = s.sent ++ [.avs s.thm.nominalMv]) ∧
    (Makes .wearBin s fun u => u = { s with thm := { s.thm with bins := (0 :: s.thm.bins).take 60 } })

/-- Resets (R398, R419, R472, R481): power-on, a pulse on RESET_N and a low supply leave every register at its reset value and lose
DRAM; a pulse below 1 µs is ignored, and that one of 1 to 10 µs resets is the model's choice (log 28); a boot without a good directory
ends in RECOVERY, from which a restart boots again; the supply's return boots. A boot completes on the slot that is tried first where
every stage of R400 passes: the directory, the header, the signature and the plaintext, every record, the stored patches, the
checks of the configuration, the start steps, and the golden copy. -/
def Obligations.Resets : Prop :=
  ∀ (s : State) (ns : Nat) (f : Iface) (env : BootEnv),
    let fresh (u : State) (held : Bool) : Prop := (∀ a, u.reg a = regReset s.fuse a) ∧ u.boot = { Boot.fresh with held := held } ∧
      u.dram = [] ∧ u.qf = [] ∧ u.seq = Sequencer.fresh ∧ u.dma = [] ∧ u.dom = [] ∧ u.flt = Flt.fresh ∧ u.clk.count = 0 ∧
      u.flash = s.flash ∧ u.gpio = s.gpio ∧ u.sent = s.sent
    let lost (u : State) : Prop := u.boot.stage = 11 ∧ u.boot.image = 2 ∧ u.boot.done = false ∧ u.faultLow = true ∧
      ∀ d, 3 ≤ d → d ≤ 20 → s.hasDom d = true → (u.domain d).st = .off
    let noDir (v : State) : Prop := (v.setFld Adr.BOOT_FL_INFO 0 16 env.flashMbit).directory = none
    let boots (i : Instr) (b : State) : Prop := ∀ copy l body steps e p q,
      let v := b.setFld Adr.BOOT_FL_INFO 0 16 env.flashMbit
      let k := if b.fld Adr.BOOT_CTL 0 2 = 1 then 1 else 0
      let area (j : Nat) : Nat × Nat := (dirAreas l).getD j (0, 0)
      let w := (v.setFld Adr.BOOT_FL_INFO 16 1 (leNat ((l.drop 5).take 1))).modBoot fun x => { x with
        dirCopy := copy, logOff := (area 4).1, logLen := (area 4).2, paOff := (area (2 + k)).1, paLen := (area (2 + k)).2,
        paEnd := (area (2 + k)).1 }
      let head := w.flRead (area k).1 288
      let n (a : Nat) : Nat := leNat ((head.drop a).take 4)
      let t := w.bootBody (n 16) (env.starts.getD 0 ⟨[], [], ⟨[], true, []⟩⟩) body
      let r := t.readLog
      v.directory = some (copy, l) →
      hdrCode [0x50, 0x56, 0x49, 0x4D] [b2n s.fuse.m] (min 7340032 (area k).2) head = Code.done →
      w.openImage (w.flRead (area k).1 (n 8)) = .ok body → t.boot.tried = [] → t.boot.start = some (steps, e) →
      r.storedPatches (r.boot.paLen / 16 + 1) r.boot.paOff 0 = (none, p) → p.firstBad = none → p.runSteps steps 0 e = (none, q) →
      env.golden.getD 0 true = true → q.dramReady = true → q.slot? = some k → Makes i s fun u =>
        u.boot.done = true ∧ u.boot.stage = 10 ∧ u.boot.image = k ∧ u.reg (errReg k) = 10 * 256 + 4096 ∧
          u.reg Adr.BOOT_IMG_VER = BitVec.ofNat 32 (n 12)
    (Makes .powerOn s fun u => fresh u false) ∧
    (s.boot = Boot.fresh → boots (.boot env) s) ∧
    (s.boot = { Boot.fresh with held := true } → boots (.supplyReturn env) (s.modBoot fun b => { b with held := false })) ∧
    (s.boot.stage = 11 → s.boot.done = false → s.writable f Adr.BOOT_CTL (s.reg Adr.BOOT_CTL ||| 0x100) →
      boots (.bootRestart f env) s.restart) ∧
    (ns < 1000 → Makes (.resetN ns) s fun u => u = s) ∧
    (1000 ≤ ns → Makes (.resetN ns) s fun u => fresh u s.boot.held) ∧
    (2000 < ns → Makes (.supplyLow ns) s fun u => fresh u true) ∧
    (s.boot = Boot.fresh → noDir s → Makes (.boot env) s fun u => lost u ∧ u.dram = s.dram ∧ u.qf = s.qf) ∧
    (s.boot = { Boot.fresh with held := true } → noDir s → Makes (.supplyReturn env) s fun u => lost u ∧ u.boot.held = false) ∧
    (s.boot.stage = 11 → s.boot.done = false → s.writable f Adr.BOOT_CTL (s.reg Adr.BOOT_CTL ||| 0x100) → noDir s.restart →
      Makes (.bootRestart f env) s fun u => lost u ∧ u.flt.ring = s.flt.ring)

/-- The records of an image (R405 to R409, R413 to R415): each is applied in its turn where it is valid, and counts as one; an
invalid one ends the attempt. What it takes from a reading of the spec is the model's choice (log 34). -/
def Obligations.BootRecords : Prop :=
  ∀ (s : State), s.boot.done = false → s.boot.held = false → s.boot.stage = 5 → s.boot.start = none →
    let next (i : Instr) (P : State → Prop) : Prop := Makes i s fun u => u.boot.rec_ = s.boot.rec_ + 1 ∧ u.boot.stage = 5 ∧ P u
    (∀ a v, (s.wr .pcie true a v).1 = Code.done → pairHi a = false → next (.regs [(a, v)]) fun u => u.regs = (s.wr .pcie true a v).2.regs) ∧
    (∀ a w, a < 65536 → s.boot.patched = false → next (.ucode a [w]) fun u => u.reg (Adr.SEQ_CSTORE a) = w ∧
      OnlyRegs { s with boot := u.boot } u [Adr.SEQ_CSTORE a]) ∧
    (∀ e w v, e < 4096 → next (.sched e [(w, v)]) fun u => u.reg (Adr.SEQ_SCHED (2 * e)) = w ∧ u.reg (Adr.SEQ_SCHED (2 * e + 1)) = v ∧
      OnlyRegs { s with boot := u.boot } u [Adr.SEQ_SCHED (2 * e), Adr.SEQ_SCHED (2 * e + 1)]) ∧
    (∀ a w, a % 4 = 0 → a + 4 ≤ 0xFF00 → next (.dmem a [w]) fun u => u.reg (Adr.SEQ_DMEM (a / 4)) = w) ∧
    (∀ (id : Word) a w, 0 < id.toNat → id.toNat < 65536 → a < 65536 → next (.patch id [(a, [w])]) fun u =>
      u.reg (Adr.SEQ_CSTORE a) = w ∧ u.fld Adr.SEQ_PATCH_ID 0 16 = id.toNat ∧ u.boot.patched = true) ∧
    (∀ e, s.entryOk e = true → e.kind ≠ 4 → next (.repairRecord [e]) fun u => u.boot.repairs = s.boot.repairs ++ [e]) ∧
    (∀ l e, l ≠ [] → l.length ≤ 64 → s.stepsOk l ([], [], []) = true → next (.start l e) fun u => u.boot.start = some (l, e) ∧
      u.regs = s.regs) ∧
    (∀ l, next (.info l) fun u => u.regs = s.regs) ∧
    ∀ i ∈ [Instr.ucode 65536 [0], .dmem 2 [0], .sched 4096 [(0, 0)], .start [] ⟨[], [], ⟨[], true, []⟩⟩, .regs [(2, 0)], .patch 0 []],
      s.boot.tried = [] → s.boot.start = none → Makes i s fun u => u.boot.tried = [if s.fld Adr.BOOT_CTL 0 2 = 1 then 1 else 0] ∧
        u.boot.stage = 0

/-- The steps of the start sequence and its end (R413 to R417): each step has its effect on the supply, a PLL, a clock domain, a
power domain, the memory packages or the time; with the START record given, END runs its steps and boot completes. What it takes
from a reading of the spec is the model's choice (log 34). -/
def Obligations.BootSteps : Prop :=
  ∀ (s : State), s.boot.done = false → s.boot.held = false → s.boot.stage = 5 →
    let x : Started := (s.pll.lock, s.pll.src, s.dom.map fun (d : Nat × Domain) => (d.1, pstateNo d.2.st))
    (∀ mv, 650 ≤ mv → mv ≤ 900 → Makes (.volt mv true) s fun u => u.vdd = mv ∧ u.thm.nominalMv = mv ∧ u.sent = s.sent ++ [.avs mv]) ∧
    (∀ n, n ≤ 6 → s.pll.xtal = true → Makes (.pll n (BitVec.ofNat 32 (s.vcoOf n)) true) s fun u => u.pll.lock.contains n = true ∧
      tget? u.pll.vco n = some (s.vcoOf n) ∧ u.regs = s.regs) ∧
    (∀ c src, s.stepOk x (.clksel c src) = true → Makes (.clksel c src) s fun u => u.clkSrc c = src ∧ u.regs = s.regs) ∧
    (∀ d st, s.stepOk x (.power d st) = true → (s.domain d).st ≠ pstate st → (s.domain d).pend = none → Makes (.startPower d st) s fun u =>
      (u.domain d).st = pstate st ∧ (u.domain d).phase = .stable) ∧
    (∀ k, s.stepOk x (.train k) = true → s.boot.repairs = [] → s.nCh ≤ 16 →
      Makes (.train k ⟨List.replicate 16 true, true, []⟩) s fun u => (∀ ch < s.nCh, (u.dc ch).up = true) ∧ u.regs = s.regs) ∧
    (∀ us, 1 ≤ us → us ≤ 100000 → Makes (.startWait us) s fun u => u = { s with boot := { s.boot with us := s.boot.us + us } }) ∧
    (∀ us, s.boot.start = some ([.wait us], ⟨[], [], ⟨[], true, []⟩⟩) → s.boot.tried = [] → s.boot.logLen = 0 → s.boot.paLen = 0 →
      s.firstBad = none → s.dramReady = true → s.boot.repairs = [] → Makes .endRecord s fun u =>
        u.boot.done = true ∧ u.boot.stage = 10 ∧ u.boot.image = (if s.fld Adr.BOOT_CTL 0 2 = 1 then 1 else 0))

/-- Decoding and encoding of microwords agree (R201 to R206): the word of a well-formed microword decodes to it, with every operand at
every value that its field admits. -/
def Obligations.MicrowordsRoundTrip : Prop :=
  ∀ (i : Instr) (w : Word), i.wf = true → i.bare = true → encodeMicro i = some w → decodeMicro w = some i

/-- Words written out from the encodings of R201 to R204: op [31:26], GD [25:22], GA [21:18], GB [17:14], IMM14 [13:0]; for WAIT EVT [25:18],
UNIT [17:16] and COUNT [15:0]; for BR COND [25:22] and the target [15:0]; for LDI IMM22. -/
def Obligations.MicrowordExamples : Prop :=
  decodeMicro 0x601D03E8 = some (.wait 0x07 1 1000 0) ∧ decodeMicro 0x9904_8000 = some (.codRow 4 1 2 0) ∧
    decodeMicro 0x1100_0010 = some (.ldi 4 16) ∧ decodeMicro 0x18CD_0005 = some (.add 3 3 4 5) ∧
    decodeMicro 0x5080_1234 = some (.br .nz 0x1234) ∧ decodeMicro 0x0400_0000 = some .stepEnd ∧ decodeMicro 0x3C00_0000 = none

/-- Every step keeps the interrupt lines right (R389, R391): a line is asserted exactly while a source qualifies for it, and a pending bit of
MSI-X is set only while a line routed to its vector is asserted. -/
def Obligations.LinesFollow : Prop :=
  ∀ s t : State, s.linesRight → step s = .next t → t.linesRight

/-- The machine after reset (R202, R398 to R400): every register at its reset value, the boot ROM at stage RESET, no list started, nothing in memory or
waiting, every domain on, the lines right, and memory in its canonical form; what the manual gives no reset value for is the
model's choice (log 3 to 7). -/
def Obligations.ResetState : Prop :=
  let s := State.reset
  (∀ a, s.reg a = regReset s.fuse a) ∧ s.boot.stage = 0 ∧ s.boot.done = false ∧ (∀ l, s.sl l = SList.fresh) ∧ s.pending = [] ∧
    (∀ q, s.queue q = Queue.fresh) ∧ (∀ d, (s.domain d).st = .on) ∧ s.linesRight ∧ memWf 0 s.dram = true ∧ memWf 0xFF s.flash = true ∧
    s.reg Adr.FLT_CTL = 0x90404
end

