-- ==== Sys2Proof/Laws/Tables.lean ====
section
/-! SUPPORT. The laws of the sparse tables, of the register map and of byte memories: a read after a write, and the canonical
form that every write keeps. -/

namespace Sys2Proof.Machine

variable {α : Type}

/-! ### Reads -/

@[simp] theorem tget?_nil (a : Nat) : tget? ([] : List (Nat × α)) a = none := rfl

theorem tget?_tdel_same (t : List (Nat × α)) (a : Nat) : tget? (tdel t a) a = none := by
  induction t with
  | nil => rfl
  | cons h t ih =>
    obtain ⟨k, v⟩ := h
    by_cases e : a = k
    · subst e; simpa [tdel] using ih
    · simp [tdel, e, tget?, ih]

theorem tget?_tdel_ne (t : List (Nat × α)) {a b : Nat} (n : b ≠ a) : tget? (tdel t a) b = tget? t b := by
  induction t with
  | nil => rfl
  | cons h t ih =>
    obtain ⟨k, v⟩ := h
    by_cases e : a = k
    · subst e; simp [tdel, tget?, n, ih]
    · by_cases f : b = k
      · subst f; simp [tdel, e, tget?]
      · simp [tdel, e, tget?, f, ih]

theorem tget?_tins_same (t : List (Nat × α)) (a : Nat) (x : α) (h : tget? t a = none) : tget? (tins a x t) a = some x := by
  induction t with
  | nil => simp [tins, tget?]
  | cons c t ih =>
    obtain ⟨k, v⟩ := c
    by_cases l : a < k
    · simp [tins, l, tget?]
    · by_cases e : a = k
      · simp [tget?, e] at h
      · simp [tget?, e] at h
        simp [tins, l, tget?, e, ih h]

theorem tget?_tins_ne (t : List (Nat × α)) {a b : Nat} (x : α) (n : b ≠ a) : tget? (tins a x t) b = tget? t b := by
  induction t with
  | nil => simp [tins, tget?, n]
  | cons c t ih =>
    obtain ⟨k, v⟩ := c
    by_cases l : a < k
    · simp [tins, l, tget?, n]
    · by_cases f : b = k
      · simp [tins, l, tget?, f]
      · simp [tins, l, tget?, f, ih]

@[simp] theorem tget?_tput_same (t : List (Nat × α)) (a : Nat) (x : α) : tget? (tput t a x) a = some x :=
  tget?_tins_same _ _ _ (tget?_tdel_same t a)

theorem tget?_tput_ne (t : List (Nat × α)) {a b : Nat} (x : α) (n : b ≠ a) : tget? (tput t a x) b = tget? t b := by
  simp [tput, tget?_tins_ne _ _ n, tget?_tdel_ne _ n]

@[simp] theorem tget_tput_same (d : α) (t : List (Nat × α)) (a : Nat) (x : α) : tget d (tput t a x) a = x := by simp [tget]

theorem tget_tput_ne (d : α) (t : List (Nat × α)) {a b : Nat} (x : α) (n : b ≠ a) : tget d (tput t a x) b = tget d t b := by
  simp [tget, tget?_tput_ne _ _ n]

@[simp] theorem tget_tset_same [DecidableEq α] (d : α) (t : List (Nat × α)) (a : Nat) (x : α) : tget d (tset d t a x) a = x := by
  unfold tset
  split
  · next e => simp [tget, tget?_tdel_same, e]
  · simp

theorem tget_tset_ne [DecidableEq α] (d e : α) (t : List (Nat × α)) {a b : Nat} (x : α) (n : b ≠ a) :
    tget d (tset e t a x) b = tget d t b := by
  unfold tset
  split
  · simp [tget, tget?_tdel_ne _ n]
  · exact tget_tput_ne _ _ _ n

/-! ### The register map -/

@[simp] theorem reg_setReg_same (s : State) (a : Nat) (v : Word) : (s.setReg a v).reg a = v := by
  have h := tget_tset_same (regReset s.fuse a) s.regs a v
  simpa [State.reg, State.setReg, tget] using h

theorem reg_setReg_ne (s : State) {a b : Nat} (v : Word) (n : b ≠ a) : (s.setReg a v).reg b = s.reg b := by
  have h := tget_tset_ne (regReset s.fuse b) (regReset s.fuse a) s.regs v n
  simpa [State.reg, State.setReg, tget] using h

theorem z_setReg_ne (s : State) {a b : Nat} (v : Word) (n : b ≠ a) : (s.setReg a v).z b = s.z b := by
  simp [State.z, State.setReg, tget_tset_ne _ _ _ _ n]

theorem z_setReg_same (s : State) (a : Nat) (v : Word) (h : regReset s.fuse a = 0) : (s.setReg a v).z a = v := by
  simp [State.z, State.setReg, h]

/-- For a register whose reset value is 0 the two readings agree. -/
theorem z_eq_reg (s : State) (a : Nat) (h : regReset s.fuse a = 0) : s.z a = s.reg a := by simp [State.z, State.reg, tget, h]

/-! ### The canonical form -/

theorem tsorted_iff (t : List (Nat × α)) : tsorted t = true ↔ (t.map (·.1)).Pairwise (· < ·) := by
  induction t with
  | nil => simp [tsorted]
  | cons c t ih =>
    obtain ⟨a, x⟩ := c
    cases t with
    | nil => simp [tsorted]
    | cons d t =>
      obtain ⟨b, y⟩ := d
      simp only [tsorted, Bool.and_eq_true, decide_eq_true_eq, ih, List.map_cons, List.pairwise_cons, List.mem_cons]
      constructor
      · rintro ⟨l, h, p⟩
        refine ⟨?_, h, p⟩
        rintro k (rfl | m)
        · exact l
        · exact Nat.lt_trans l (h _ m)
      · rintro ⟨h, p⟩
        exact ⟨h _ (Or.inl rfl), p⟩

theorem mem_tdel {t : List (Nat × α)} {a : Nat} {c : Nat × α} : c ∈ tdel t a ↔ c ∈ t ∧ c.1 ≠ a := by
  induction t with
  | nil => simp [tdel]
  | cons h t ih =>
    obtain ⟨k, v⟩ := h
    by_cases e : a = k
    · subst e
      simp only [tdel, if_true, ih, List.mem_cons]
      constructor
      · rintro ⟨m, n⟩; exact ⟨Or.inr m, n⟩
      · rintro ⟨rfl | m, n⟩
        · exact absurd rfl n
        · exact ⟨m, n⟩
    · simp only [tdel, e, if_false, List.mem_cons, ih]
      constructor
      · rintro (rfl | ⟨m, n⟩)
        · exact ⟨Or.inl rfl, fun h => e h.symm⟩
        · exact ⟨Or.inr m, n⟩
      · rintro ⟨rfl | m, n⟩
        · exact Or.inl rfl
        · exact Or.inr ⟨m, n⟩

theorem tdel_sublist (t : List (Nat × α)) (a : Nat) : (tdel t a).Sublist t := by
  induction t with
  | nil => exact List.Sublist.refl _
  | cons h t ih =>
    obtain ⟨k, v⟩ := h
    by_cases e : a = k
    · simpa [tdel, e] using (by subst e; exact ih.cons _ : (tdel t a).Sublist ((k, v) :: t))
    · simpa [tdel, e] using ih

theorem tdel_sorted {t : List (Nat × α)} (a : Nat) (h : tsorted t = true) : tsorted (tdel t a) = true := by
  rw [tsorted_iff] at *
  exact h.sublist ((tdel_sublist t a).map _)

theorem mem_tins {t : List (Nat × α)} {a : Nat} {x : α} {c : Nat × α} : c ∈ tins a x t ↔ c = (a, x) ∨ c ∈ t := by
  induction t with
  | nil => simp [tins]
  | cons h t ih =>
    obtain ⟨k, v⟩ := h
    by_cases l : a < k
    · simp [tins, l]
    · simp only [tins, l, if_false, List.mem_cons, ih]
      exact or_left_comm

theorem tins_sorted {t : List (Nat × α)} (a : Nat) (x : α) (h : tsorted t = true) (n : ∀ c ∈ t, c.1 ≠ a) :
    tsorted (tins a x t) = true := by
  rw [tsorted_iff] at *
  induction t with
  | nil => simp [tins]
  | cons c t ih =>
    obtain ⟨k, v⟩ := c
    simp only [List.map_cons, List.pairwise_cons, List.mem_map, forall_exists_index, and_imp] at h
    by_cases l : a < k
    · simp only [tins, l, if_true, List.map_cons, List.pairwise_cons, List.mem_cons, List.mem_map]
      refine ⟨?_, ?_, h.2⟩
      · rintro b (rfl | ⟨d, m, rfl⟩)
        · exact l
        · exact Nat.lt_trans l (h.1 _ d m rfl)
      · rintro b ⟨d, m, rfl⟩; exact h.1 _ d m rfl
    · have ka : k < a := Nat.lt_of_le_of_ne (Nat.not_lt.mp l) (n _ List.mem_cons_self)
      simp only [tins, l, if_false, List.map_cons, List.pairwise_cons, List.mem_map]
      refine ⟨?_, ih h.2 fun c m => n c (List.mem_cons_of_mem _ m)⟩
      rintro b ⟨d, m, rfl⟩
      rcases mem_tins.mp m with rfl | m
      · exact ka
      · exact h.1 _ d m rfl

theorem tput_sorted {t : List (Nat × α)} (a : Nat) (x : α) (h : tsorted t = true) : tsorted (tput t a x) = true :=
  tins_sorted a x (tdel_sorted a h) fun _ m => (mem_tdel.mp m).2

theorem tset_sorted [DecidableEq α] (d : α) {t : List (Nat × α)} (a : Nat) (x : α) (h : tsorted t = true) :
    tsorted (tset d t a x) = true := by
  unfold tset
  split
  · exact tdel_sorted a h
  · exact tput_sorted a x h

/-! ### Byte memories -/

/-- Writing a byte keeps the canonical form. -/
theorem memPut_wf (d : Byte) {m : List Host.Cell} (a : Nat) (b : Byte) (h : memWf d m = true) : memWf d (memPut d m a b) = true := by
  simp only [memWf, Bool.and_eq_true, List.all_eq_true, bne_iff_ne, ne_eq] at *
  refine ⟨tset_sorted d a b h.1, fun c hc => ?_⟩
  unfold memPut tset at hc
  split at hc
  · exact h.2 c (mem_tdel.mp hc).1
  · next e =>
    rcases mem_tins.mp hc with rfl | hc
    · exact e
    · exact h.2 c (mem_tdel.mp hc).1

/-- Writing bytes keeps the canonical form. -/
theorem memWrite_wf (d : Byte) {m : List Host.Cell} (a : Nat) (l : List Byte) (h : memWf d m = true) :
    memWf d (memWrite d m a l) = true := by
  induction l generalizing m a with
  | nil => exact h
  | cons b t ih => exact ih (a + 1) (memPut_wf d a b h)

@[simp] theorem memGet_memPut_same (d : Byte) (m : List Host.Cell) (a : Nat) (b : Byte) : memGet d (memPut d m a b) a = b := by
  simp [memGet, memPut]

theorem memGet_memPut_ne (d : Byte) (m : List Host.Cell) {a c : Nat} (b : Byte) (n : c ≠ a) :
    memGet d (memPut d m a b) c = memGet d m c := by simp [memGet, memPut, tget_tset_ne _ _ _ _ n]

/-- A write of bytes leaves every other byte alone. -/
theorem memGet_memWrite_out (d : Byte) (m : List Host.Cell) (a c : Nat) (l : List Byte) (h : c < a ∨ a + l.length ≤ c) :
    memGet d (memWrite d m a l) c = memGet d m c := by
  induction l generalizing m a with
  | nil => rfl
  | cons b t ih =>
    simp only [List.length_cons] at h
    rw [memWrite, ih _ (a + 1) (by omega), memGet_memPut_ne _ _ _ (by omega)]

/-- A byte written is read. -/
theorem memGet_memWrite_in (d : Byte) (m : List Host.Cell) (a i : Nat) (l : List Byte) (h : i < l.length) :
    memGet d (memWrite d m a l) (a + i) = l[i] := by
  induction l generalizing m a i with
  | nil => simp at h
  | cons b t ih =>
    cases i with
    | zero =>
      rw [memWrite, memGet_memWrite_out _ _ _ _ _ (Or.inl (by omega))]
      simp
    | succ i =>
      have := ih (memPut d m a b) (a + 1) i (by simpa using h)
      rw [memWrite, show a + (i + 1) = a + 1 + i by omega, this]
      rfl

/-- Bytes written together are read. -/
theorem memRead_memWrite_in (d : Byte) (m : List Host.Cell) (a i n : Nat) (l : List Byte) (h : i + n ≤ l.length) :
    memRead d (memWrite d m a l) (a + i) n = (l.drop i).take n := by
  induction n generalizing i with
  | zero => simp [memRead]
  | succ n ih =>
    have x := ih (i + 1) (by omega)
    rw [memRead, memGet_memWrite_in d m a i l (by omega), Nat.add_assoc, x]
    rw [List.drop_eq_getElem_cons (by omega : i < l.length), List.take_succ_cons]

/-- A write of bytes leaves a read elsewhere alone. -/
theorem memRead_memWrite_out (d : Byte) (m : List Host.Cell) (a c n : Nat) (l : List Byte) (h : c + n ≤ a ∨ a + l.length ≤ c) :
    memRead d (memWrite d m a l) c n = memRead d m c n := by
  induction n generalizing c with
  | zero => rfl
  | succ n ih => rw [memRead, memRead, memGet_memWrite_out d m a c l (by omega), ih (c + 1) (by omega)]

end Sys2Proof.Machine
end

