-- ==== Sys2Proof/Laws/State.lean ====
section
/-! SUPPORT. What each update of the state does to each field: it changes one, and leaves the others. The entry of a keyed
table after an update of it stands at the end. -/

namespace Sys2Proof.Machine

variable (s : State)

/-! ### setReg -/

@[simp] theorem setReg_fuse (a : Nat) (v : Word) : (s.setReg a v).fuse = s.fuse := rfl
@[simp] theorem setReg_force (a : Nat) (v : Word) : (s.setReg a v).force = s.force := rfl
@[simp] theorem setReg_holdR (a : Nat) (v : Word) : (s.setReg a v).holdR = s.holdR := rfl
@[simp] theorem setReg_holdW (a : Nat) (v : Word) : (s.setReg a v).holdW = s.holdW := rfl
@[simp] theorem setReg_loads (a : Nat) (v : Word) : (s.setReg a v).loads = s.loads := rfl
@[simp] theorem setReg_gpio (a : Nat) (v : Word) : (s.setReg a v).gpio = s.gpio := rfl
@[simp] theorem setReg_clk (a : Nat) (v : Word) : (s.setReg a v).clk = s.clk := rfl
@[simp] theorem setReg_dom (a : Nat) (v : Word) : (s.setReg a v).dom = s.dom := rfl
@[simp] theorem setReg_evts (a : Nat) (v : Word) : (s.setReg a v).evts = s.evts := rfl
@[simp] theorem setReg_thm (a : Nat) (v : Word) : (s.setReg a v).thm = s.thm := rfl
@[simp] theorem setReg_flt (a : Nat) (v : Word) : (s.setReg a v).flt = s.flt := rfl
@[simp] theorem setReg_ic (a : Nat) (v : Word) : (s.setReg a v).ic = s.ic := rfl
@[simp] theorem setReg_win (a : Nat) (v : Word) : (s.setReg a v).win = s.win := rfl
@[simp] theorem setReg_pll (a : Nat) (v : Word) : (s.setReg a v).pll = s.pll := rfl
@[simp] theorem setReg_seq (a : Nat) (v : Word) : (s.setReg a v).seq = s.seq := rfl
@[simp] theorem setReg_boot (a : Nat) (v : Word) : (s.setReg a v).boot = s.boot := rfl
@[simp] theorem setReg_flash (a : Nat) (v : Word) : (s.setReg a v).flash = s.flash := rfl
@[simp] theorem setReg_flops (a : Nat) (v : Word) : (s.setReg a v).flops = s.flops := rfl
@[simp] theorem setReg_dram (a : Nat) (v : Word) : (s.setReg a v).dram = s.dram := rfl
@[simp] theorem setReg_dch (a : Nat) (v : Word) : (s.setReg a v).dch = s.dch := rfl
@[simp] theorem setReg_dctl (a : Nat) (v : Word) : (s.setReg a v).dctl = s.dctl := rfl
@[simp] theorem setReg_qf (a : Nat) (v : Word) : (s.setReg a v).qf = s.qf := rfl
@[simp] theorem setReg_pools (a : Nat) (v : Word) : (s.setReg a v).pools = s.pools := rfl
@[simp] theorem setReg_lnd (a : Nat) (v : Word) : (s.setReg a v).lnd = s.lnd := rfl
@[simp] theorem setReg_hdrs (a : Nat) (v : Word) : (s.setReg a v).hdrs = s.hdrs := rfl
@[simp] theorem setReg_xcv (a : Nat) (v : Word) : (s.setReg a v).xcv = s.xcv := rfl
@[simp] theorem setReg_fct (a : Nat) (v : Word) : (s.setReg a v).fct = s.fct := rfl
@[simp] theorem setReg_cod (a : Nat) (v : Word) : (s.setReg a v).cod = s.cod := rfl
@[simp] theorem setReg_play (a : Nat) (v : Word) : (s.setReg a v).play = s.play := rfl
@[simp] theorem setReg_sch (a : Nat) (v : Word) : (s.setReg a v).sch = s.sch := rfl
@[simp] theorem setReg_ptp (a : Nat) (v : Word) : (s.setReg a v).ptp = s.ptp := rfl
@[simp] theorem setReg_dma (a : Nat) (v : Word) : (s.setReg a v).dma = s.dma := rfl
@[simp] theorem setReg_dmaArb (a : Nat) (v : Word) : (s.setReg a v).dmaArb = s.dmaArb := rfl
@[simp] theorem setReg_hostOpen (a : Nat) (v : Word) : (s.setReg a v).hostOpen = s.hostOpen := rfl
@[simp] theorem setReg_answers (a : Nat) (v : Word) : (s.setReg a v).answers = s.answers := rfl
@[simp] theorem setReg_rd (a : Nat) (v : Word) : (s.setReg a v).rd = s.rd := rfl
@[simp] theorem setReg_sent (a : Nat) (v : Word) : (s.setReg a v).sent = s.sent := rfl
@[simp] theorem setReg_freeCtr (a : Nat) (v : Word) : (s.setReg a v).freeCtr = s.freeCtr := rfl
@[simp] theorem setReg_pending (a : Nat) (v : Word) : (s.setReg a v).pending = s.pending := rfl

/-! ### setDomain -/

@[simp] theorem setDomain_fuse (d : Nat) (x : Domain) : (s.setDomain d x).fuse = s.fuse := rfl
@[simp] theorem setDomain_regs (d : Nat) (x : Domain) : (s.setDomain d x).regs = s.regs := rfl
@[simp] theorem setDomain_force (d : Nat) (x : Domain) : (s.setDomain d x).force = s.force := rfl
@[simp] theorem setDomain_holdR (d : Nat) (x : Domain) : (s.setDomain d x).holdR = s.holdR := rfl
@[simp] theorem setDomain_holdW (d : Nat) (x : Domain) : (s.setDomain d x).holdW = s.holdW := rfl
@[simp] theorem setDomain_loads (d : Nat) (x : Domain) : (s.setDomain d x).loads = s.loads := rfl
@[simp] theorem setDomain_gpio (d : Nat) (x : Domain) : (s.setDomain d x).gpio = s.gpio := rfl
@[simp] theorem setDomain_clk (d : Nat) (x : Domain) : (s.setDomain d x).clk = s.clk := rfl
@[simp] theorem setDomain_evts (d : Nat) (x : Domain) : (s.setDomain d x).evts = s.evts := rfl
@[simp] theorem setDomain_thm (d : Nat) (x : Domain) : (s.setDomain d x).thm = s.thm := rfl
@[simp] theorem setDomain_flt (d : Nat) (x : Domain) : (s.setDomain d x).flt = s.flt := rfl
@[simp] theorem setDomain_ic (d : Nat) (x : Domain) : (s.setDomain d x).ic = s.ic := rfl
@[simp] theorem setDomain_win (d : Nat) (x : Domain) : (s.setDomain d x).win = s.win := rfl
@[simp] theorem setDomain_pll (d : Nat) (x : Domain) : (s.setDomain d x).pll = s.pll := rfl
@[simp] theorem setDomain_seq (d : Nat) (x : Domain) : (s.setDomain d x).seq = s.seq := rfl
@[simp] theorem setDomain_boot (d : Nat) (x : Domain) : (s.setDomain d x).boot = s.boot := rfl
@[simp] theorem setDomain_flash (d : Nat) (x : Domain) : (s.setDomain d x).flash = s.flash := rfl
@[simp] theorem setDomain_flops (d : Nat) (x : Domain) : (s.setDomain d x).flops = s.flops := rfl
@[simp] theorem setDomain_dram (d : Nat) (x : Domain) : (s.setDomain d x).dram = s.dram := rfl
@[simp] theorem setDomain_dch (d : Nat) (x : Domain) : (s.setDomain d x).dch = s.dch := rfl
@[simp] theorem setDomain_dctl (d : Nat) (x : Domain) : (s.setDomain d x).dctl = s.dctl := rfl
@[simp] theorem setDomain_qf (d : Nat) (x : Domain) : (s.setDomain d x).qf = s.qf := rfl
@[simp] theorem setDomain_pools (d : Nat) (x : Domain) : (s.setDomain d x).pools = s.pools := rfl
@[simp] theorem setDomain_lnd (d : Nat) (x : Domain) : (s.setDomain d x).lnd = s.lnd := rfl
@[simp] theorem setDomain_hdrs (d : Nat) (x : Domain) : (s.setDomain d x).hdrs = s.hdrs := rfl
@[simp] theorem setDomain_xcv (d : Nat) (x : Domain) : (s.setDomain d x).xcv = s.xcv := rfl
@[simp] theorem setDomain_fct (d : Nat) (x : Domain) : (s.setDomain d x).fct = s.fct := rfl
@[simp] theorem setDomain_cod (d : Nat) (x : Domain) : (s.setDomain d x).cod = s.cod := rfl
@[simp] theorem setDomain_play (d : Nat) (x : Domain) : (s.setDomain d x).play = s.play := rfl
@[simp] theorem setDomain_sch (d : Nat) (x : Domain) : (s.setDomain d x).sch = s.sch := rfl
@[simp] theorem setDomain_ptp (d : Nat) (x : Domain) : (s.setDomain d x).ptp = s.ptp := rfl
@[simp] theorem setDomain_dma (d : Nat) (x : Domain) : (s.setDomain d x).dma = s.dma := rfl
@[simp] theorem setDomain_dmaArb (d : Nat) (x : Domain) : (s.setDomain d x).dmaArb = s.dmaArb := rfl
@[simp] theorem setDomain_hostOpen (d : Nat) (x : Domain) : (s.setDomain d x).hostOpen = s.hostOpen := rfl
@[simp] theorem setDomain_answers (d : Nat) (x : Domain) : (s.setDomain d x).answers = s.answers := rfl
@[simp] theorem setDomain_rd (d : Nat) (x : Domain) : (s.setDomain d x).rd = s.rd := rfl
@[simp] theorem setDomain_sent (d : Nat) (x : Domain) : (s.setDomain d x).sent = s.sent := rfl
@[simp] theorem setDomain_freeCtr (d : Nat) (x : Domain) : (s.setDomain d x).freeCtr = s.freeCtr := rfl
@[simp] theorem setDomain_pending (d : Nat) (x : Domain) : (s.setDomain d x).pending = s.pending := rfl

/-! ### setPool -/

@[simp] theorem setPool_fuse (k : Nat) (x : Pool) : (s.setPool k x).fuse = s.fuse := rfl
@[simp] theorem setPool_regs (k : Nat) (x : Pool) : (s.setPool k x).regs = s.regs := rfl
@[simp] theorem setPool_force (k : Nat) (x : Pool) : (s.setPool k x).force = s.force := rfl
@[simp] theorem setPool_holdR (k : Nat) (x : Pool) : (s.setPool k x).holdR = s.holdR := rfl
@[simp] theorem setPool_holdW (k : Nat) (x : Pool) : (s.setPool k x).holdW = s.holdW := rfl
@[simp] theorem setPool_loads (k : Nat) (x : Pool) : (s.setPool k x).loads = s.loads := rfl
@[simp] theorem setPool_gpio (k : Nat) (x : Pool) : (s.setPool k x).gpio = s.gpio := rfl
@[simp] theorem setPool_clk (k : Nat) (x : Pool) : (s.setPool k x).clk = s.clk := rfl
@[simp] theorem setPool_dom (k : Nat) (x : Pool) : (s.setPool k x).dom = s.dom := rfl
@[simp] theorem setPool_evts (k : Nat) (x : Pool) : (s.setPool k x).evts = s.evts := rfl
@[simp] theorem setPool_thm (k : Nat) (x : Pool) : (s.setPool k x).thm = s.thm := rfl
@[simp] theorem setPool_flt (k : Nat) (x : Pool) : (s.setPool k x).flt = s.flt := rfl
@[simp] theorem setPool_ic (k : Nat) (x : Pool) : (s.setPool k x).ic = s.ic := rfl
@[simp] theorem setPool_win (k : Nat) (x : Pool) : (s.setPool k x).win = s.win := rfl
@[simp] theorem setPool_pll (k : Nat) (x : Pool) : (s.setPool k x).pll = s.pll := rfl
@[simp] theorem setPool_seq (k : Nat) (x : Pool) : (s.setPool k x).seq = s.seq := rfl
@[simp] theorem setPool_boot (k : Nat) (x : Pool) : (s.setPool k x).boot = s.boot := rfl
@[simp] theorem setPool_flash (k : Nat) (x : Pool) : (s.setPool k x).flash = s.flash := rfl
@[simp] theorem setPool_flops (k : Nat) (x : Pool) : (s.setPool k x).flops = s.flops := rfl
@[simp] theorem setPool_dram (k : Nat) (x : Pool) : (s.setPool k x).dram = s.dram := rfl
@[simp] theorem setPool_dch (k : Nat) (x : Pool) : (s.setPool k x).dch = s.dch := rfl
@[simp] theorem setPool_dctl (k : Nat) (x : Pool) : (s.setPool k x).dctl = s.dctl := rfl
@[simp] theorem setPool_qf (k : Nat) (x : Pool) : (s.setPool k x).qf = s.qf := rfl
@[simp] theorem setPool_lnd (k : Nat) (x : Pool) : (s.setPool k x).lnd = s.lnd := rfl
@[simp] theorem setPool_hdrs (k : Nat) (x : Pool) : (s.setPool k x).hdrs = s.hdrs := rfl
@[simp] theorem setPool_xcv (k : Nat) (x : Pool) : (s.setPool k x).xcv = s.xcv := rfl
@[simp] theorem setPool_fct (k : Nat) (x : Pool) : (s.setPool k x).fct = s.fct := rfl
@[simp] theorem setPool_cod (k : Nat) (x : Pool) : (s.setPool k x).cod = s.cod := rfl
@[simp] theorem setPool_play (k : Nat) (x : Pool) : (s.setPool k x).play = s.play := rfl
@[simp] theorem setPool_sch (k : Nat) (x : Pool) : (s.setPool k x).sch = s.sch := rfl
@[simp] theorem setPool_ptp (k : Nat) (x : Pool) : (s.setPool k x).ptp = s.ptp := rfl
@[simp] theorem setPool_dma (k : Nat) (x : Pool) : (s.setPool k x).dma = s.dma := rfl
@[simp] theorem setPool_dmaArb (k : Nat) (x : Pool) : (s.setPool k x).dmaArb = s.dmaArb := rfl
@[simp] theorem setPool_hostOpen (k : Nat) (x : Pool) : (s.setPool k x).hostOpen = s.hostOpen := rfl
@[simp] theorem setPool_answers (k : Nat) (x : Pool) : (s.setPool k x).answers = s.answers := rfl
@[simp] theorem setPool_rd (k : Nat) (x : Pool) : (s.setPool k x).rd = s.rd := rfl
@[simp] theorem setPool_sent (k : Nat) (x : Pool) : (s.setPool k x).sent = s.sent := rfl
@[simp] theorem setPool_freeCtr (k : Nat) (x : Pool) : (s.setPool k x).freeCtr = s.freeCtr := rfl
@[simp] theorem setPool_pending (k : Nat) (x : Pool) : (s.setPool k x).pending = s.pending := rfl

/-! ### setQueue -/

@[simp] theorem setQueue_fuse (q : Nat) (x : Queue) : (s.setQueue q x).fuse = s.fuse := rfl
@[simp] theorem setQueue_regs (q : Nat) (x : Queue) : (s.setQueue q x).regs = s.regs := rfl
@[simp] theorem setQueue_force (q : Nat) (x : Queue) : (s.setQueue q x).force = s.force := rfl
@[simp] theorem setQueue_holdR (q : Nat) (x : Queue) : (s.setQueue q x).holdR = s.holdR := rfl
@[simp] theorem setQueue_holdW (q : Nat) (x : Queue) : (s.setQueue q x).holdW = s.holdW := rfl
@[simp] theorem setQueue_loads (q : Nat) (x : Queue) : (s.setQueue q x).loads = s.loads := rfl
@[simp] theorem setQueue_gpio (q : Nat) (x : Queue) : (s.setQueue q x).gpio = s.gpio := rfl
@[simp] theorem setQueue_clk (q : Nat) (x : Queue) : (s.setQueue q x).clk = s.clk := rfl
@[simp] theorem setQueue_dom (q : Nat) (x : Queue) : (s.setQueue q x).dom = s.dom := rfl
@[simp] theorem setQueue_evts (q : Nat) (x : Queue) : (s.setQueue q x).evts = s.evts := rfl
@[simp] theorem setQueue_thm (q : Nat) (x : Queue) : (s.setQueue q x).thm = s.thm := rfl
@[simp] theorem setQueue_flt (q : Nat) (x : Queue) : (s.setQueue q x).flt = s.flt := rfl
@[simp] theorem setQueue_ic (q : Nat) (x : Queue) : (s.setQueue q x).ic = s.ic := rfl
@[simp] theorem setQueue_win (q : Nat) (x : Queue) : (s.setQueue q x).win = s.win := rfl
@[simp] theorem setQueue_pll (q : Nat) (x : Queue) : (s.setQueue q x).pll = s.pll := rfl
@[simp] theorem setQueue_seq (q : Nat) (x : Queue) : (s.setQueue q x).seq = s.seq := rfl
@[simp] theorem setQueue_boot (q : Nat) (x : Queue) : (s.setQueue q x).boot = s.boot := rfl
@[simp] theorem setQueue_flash (q : Nat) (x : Queue) : (s.setQueue q x).flash = s.flash := rfl
@[simp] theorem setQueue_flops (q : Nat) (x : Queue) : (s.setQueue q x).flops = s.flops := rfl
@[simp] theorem setQueue_dram (q : Nat) (x : Queue) : (s.setQueue q x).dram = s.dram := rfl
@[simp] theorem setQueue_dch (q : Nat) (x : Queue) : (s.setQueue q x).dch = s.dch := rfl
@[simp] theorem setQueue_dctl (q : Nat) (x : Queue) : (s.setQueue q x).dctl = s.dctl := rfl
@[simp] theorem setQueue_pools (q : Nat) (x : Queue) : (s.setQueue q x).pools = s.pools := rfl
@[simp] theorem setQueue_lnd (q : Nat) (x : Queue) : (s.setQueue q x).lnd = s.lnd := rfl
@[simp] theorem setQueue_hdrs (q : Nat) (x : Queue) : (s.setQueue q x).hdrs = s.hdrs := rfl
@[simp] theorem setQueue_xcv (q : Nat) (x : Queue) : (s.setQueue q x).xcv = s.xcv := rfl
@[simp] theorem setQueue_fct (q : Nat) (x : Queue) : (s.setQueue q x).fct = s.fct := rfl
@[simp] theorem setQueue_cod (q : Nat) (x : Queue) : (s.setQueue q x).cod = s.cod := rfl
@[simp] theorem setQueue_play (q : Nat) (x : Queue) : (s.setQueue q x).play = s.play := rfl
@[simp] theorem setQueue_sch (q : Nat) (x : Queue) : (s.setQueue q x).sch = s.sch := rfl
@[simp] theorem setQueue_ptp (q : Nat) (x : Queue) : (s.setQueue q x).ptp = s.ptp := rfl
@[simp] theorem setQueue_dma (q : Nat) (x : Queue) : (s.setQueue q x).dma = s.dma := rfl
@[simp] theorem setQueue_dmaArb (q : Nat) (x : Queue) : (s.setQueue q x).dmaArb = s.dmaArb := rfl
@[simp] theorem setQueue_hostOpen (q : Nat) (x : Queue) : (s.setQueue q x).hostOpen = s.hostOpen := rfl
@[simp] theorem setQueue_answers (q : Nat) (x : Queue) : (s.setQueue q x).answers = s.answers := rfl
@[simp] theorem setQueue_rd (q : Nat) (x : Queue) : (s.setQueue q x).rd = s.rd := rfl
@[simp] theorem setQueue_sent (q : Nat) (x : Queue) : (s.setQueue q x).sent = s.sent := rfl
@[simp] theorem setQueue_freeCtr (q : Nat) (x : Queue) : (s.setQueue q x).freeCtr = s.freeCtr := rfl
@[simp] theorem setQueue_pending (q : Nat) (x : Queue) : (s.setQueue q x).pending = s.pending := rfl

/-! ### setCx -/

@[simp] theorem setCx_fuse (c : Nat) (x : Ctx) : (s.setCx c x).fuse = s.fuse := rfl
@[simp] theorem setCx_regs (c : Nat) (x : Ctx) : (s.setCx c x).regs = s.regs := rfl
@[simp] theorem setCx_force (c : Nat) (x : Ctx) : (s.setCx c x).force = s.force := rfl
@[simp] theorem setCx_holdR (c : Nat) (x : Ctx) : (s.setCx c x).holdR = s.holdR := rfl
@[simp] theorem setCx_holdW (c : Nat) (x : Ctx) : (s.setCx c x).holdW = s.holdW := rfl
@[simp] theorem setCx_loads (c : Nat) (x : Ctx) : (s.setCx c x).loads = s.loads := rfl
@[simp] theorem setCx_gpio (c : Nat) (x : Ctx) : (s.setCx c x).gpio = s.gpio := rfl
@[simp] theorem setCx_clk (c : Nat) (x : Ctx) : (s.setCx c x).clk = s.clk := rfl
@[simp] theorem setCx_dom (c : Nat) (x : Ctx) : (s.setCx c x).dom = s.dom := rfl
@[simp] theorem setCx_evts (c : Nat) (x : Ctx) : (s.setCx c x).evts = s.evts := rfl
@[simp] theorem setCx_thm (c : Nat) (x : Ctx) : (s.setCx c x).thm = s.thm := rfl
@[simp] theorem setCx_flt (c : Nat) (x : Ctx) : (s.setCx c x).flt = s.flt := rfl
@[simp] theorem setCx_ic (c : Nat) (x : Ctx) : (s.setCx c x).ic = s.ic := rfl
@[simp] theorem setCx_win (c : Nat) (x : Ctx) : (s.setCx c x).win = s.win := rfl
@[simp] theorem setCx_pll (c : Nat) (x : Ctx) : (s.setCx c x).pll = s.pll := rfl
@[simp] theorem setCx_seq (c : Nat) (x : Ctx) : (s.setCx c x).seq = s.seq := rfl
@[simp] theorem setCx_boot (c : Nat) (x : Ctx) : (s.setCx c x).boot = s.boot := rfl
@[simp] theorem setCx_flash (c : Nat) (x : Ctx) : (s.setCx c x).flash = s.flash := rfl
@[simp] theorem setCx_flops (c : Nat) (x : Ctx) : (s.setCx c x).flops = s.flops := rfl
@[simp] theorem setCx_dram (c : Nat) (x : Ctx) : (s.setCx c x).dram = s.dram := rfl
@[simp] theorem setCx_dch (c : Nat) (x : Ctx) : (s.setCx c x).dch = s.dch := rfl
@[simp] theorem setCx_dctl (c : Nat) (x : Ctx) : (s.setCx c x).dctl = s.dctl := rfl
@[simp] theorem setCx_qf (c : Nat) (x : Ctx) : (s.setCx c x).qf = s.qf := rfl
@[simp] theorem setCx_pools (c : Nat) (x : Ctx) : (s.setCx c x).pools = s.pools := rfl
@[simp] theorem setCx_lnd (c : Nat) (x : Ctx) : (s.setCx c x).lnd = s.lnd := rfl
@[simp] theorem setCx_hdrs (c : Nat) (x : Ctx) : (s.setCx c x).hdrs = s.hdrs := rfl
@[simp] theorem setCx_xcv (c : Nat) (x : Ctx) : (s.setCx c x).xcv = s.xcv := rfl
@[simp] theorem setCx_fct (c : Nat) (x : Ctx) : (s.setCx c x).fct = s.fct := rfl
@[simp] theorem setCx_play (c : Nat) (x : Ctx) : (s.setCx c x).play = s.play := rfl
@[simp] theorem setCx_sch (c : Nat) (x : Ctx) : (s.setCx c x).sch = s.sch := rfl
@[simp] theorem setCx_ptp (c : Nat) (x : Ctx) : (s.setCx c x).ptp = s.ptp := rfl
@[simp] theorem setCx_dma (c : Nat) (x : Ctx) : (s.setCx c x).dma = s.dma := rfl
@[simp] theorem setCx_dmaArb (c : Nat) (x : Ctx) : (s.setCx c x).dmaArb = s.dmaArb := rfl
@[simp] theorem setCx_hostOpen (c : Nat) (x : Ctx) : (s.setCx c x).hostOpen = s.hostOpen := rfl
@[simp] theorem setCx_answers (c : Nat) (x : Ctx) : (s.setCx c x).answers = s.answers := rfl
@[simp] theorem setCx_rd (c : Nat) (x : Ctx) : (s.setCx c x).rd = s.rd := rfl
@[simp] theorem setCx_sent (c : Nat) (x : Ctx) : (s.setCx c x).sent = s.sent := rfl
@[simp] theorem setCx_freeCtr (c : Nat) (x : Ctx) : (s.setCx c x).freeCtr = s.freeCtr := rfl
@[simp] theorem setCx_pending (c : Nat) (x : Ctx) : (s.setCx c x).pending = s.pending := rfl

/-! ### setCe -/

@[simp] theorem setCe_fuse (e : Nat) (x : CEngine) : (s.setCe e x).fuse = s.fuse := rfl
@[simp] theorem setCe_regs (e : Nat) (x : CEngine) : (s.setCe e x).regs = s.regs := rfl
@[simp] theorem setCe_force (e : Nat) (x : CEngine) : (s.setCe e x).force = s.force := rfl
@[simp] theorem setCe_holdR (e : Nat) (x : CEngine) : (s.setCe e x).holdR = s.holdR := rfl
@[simp] theorem setCe_holdW (e : Nat) (x : CEngine) : (s.setCe e x).holdW = s.holdW := rfl
@[simp] theorem setCe_loads (e : Nat) (x : CEngine) : (s.setCe e x).loads = s.loads := rfl
@[simp] theorem setCe_gpio (e : Nat) (x : CEngine) : (s.setCe e x).gpio = s.gpio := rfl
@[simp] theorem setCe_clk (e : Nat) (x : CEngine) : (s.setCe e x).clk = s.clk := rfl
@[simp] theorem setCe_dom (e : Nat) (x : CEngine) : (s.setCe e x).dom = s.dom := rfl
@[simp] theorem setCe_evts (e : Nat) (x : CEngine) : (s.setCe e x).evts = s.evts := rfl
@[simp] theorem setCe_thm (e : Nat) (x : CEngine) : (s.setCe e x).thm = s.thm := rfl
@[simp] theorem setCe_flt (e : Nat) (x : CEngine) : (s.setCe e x).flt = s.flt := rfl
@[simp] theorem setCe_ic (e : Nat) (x : CEngine) : (s.setCe e x).ic = s.ic := rfl
@[simp] theorem setCe_win (e : Nat) (x : CEngine) : (s.setCe e x).win = s.win := rfl
@[simp] theorem setCe_pll (e : Nat) (x : CEngine) : (s.setCe e x).pll = s.pll := rfl
@[simp] theorem setCe_seq (e : Nat) (x : CEngine) : (s.setCe e x).seq = s.seq := rfl
@[simp] theorem setCe_boot (e : Nat) (x : CEngine) : (s.setCe e x).boot = s.boot := rfl
@[simp] theorem setCe_flash (e : Nat) (x : CEngine) : (s.setCe e x).flash = s.flash := rfl
@[simp] theorem setCe_flops (e : Nat) (x : CEngine) : (s.setCe e x).flops = s.flops := rfl
@[simp] theorem setCe_dram (e : Nat) (x : CEngine) : (s.setCe e x).dram = s.dram := rfl
@[simp] theorem setCe_dch (e : Nat) (x : CEngine) : (s.setCe e x).dch = s.dch := rfl
@[simp] theorem setCe_dctl (e : Nat) (x : CEngine) : (s.setCe e x).dctl = s.dctl := rfl
@[simp] theorem setCe_qf (e : Nat) (x : CEngine) : (s.setCe e x).qf = s.qf := rfl
@[simp] theorem setCe_pools (e : Nat) (x : CEngine) : (s.setCe e x).pools = s.pools := rfl
@[simp] theorem setCe_lnd (e : Nat) (x : CEngine) : (s.setCe e x).lnd = s.lnd := rfl
@[simp] theorem setCe_hdrs (e : Nat) (x : CEngine) : (s.setCe e x).hdrs = s.hdrs := rfl
@[simp] theorem setCe_xcv (e : Nat) (x : CEngine) : (s.setCe e x).xcv = s.xcv := rfl
@[simp] theorem setCe_fct (e : Nat) (x : CEngine) : (s.setCe e x).fct = s.fct := rfl
@[simp] theorem setCe_play (e : Nat) (x : CEngine) : (s.setCe e x).play = s.play := rfl
@[simp] theorem setCe_sch (e : Nat) (x : CEngine) : (s.setCe e x).sch = s.sch := rfl
@[simp] theorem setCe_ptp (e : Nat) (x : CEngine) : (s.setCe e x).ptp = s.ptp := rfl
@[simp] theorem setCe_dma (e : Nat) (x : CEngine) : (s.setCe e x).dma = s.dma := rfl
@[simp] theorem setCe_dmaArb (e : Nat) (x : CEngine) : (s.setCe e x).dmaArb = s.dmaArb := rfl
@[simp] theorem setCe_hostOpen (e : Nat) (x : CEngine) : (s.setCe e x).hostOpen = s.hostOpen := rfl
@[simp] theorem setCe_answers (e : Nat) (x : CEngine) : (s.setCe e x).answers = s.answers := rfl
@[simp] theorem setCe_rd (e : Nat) (x : CEngine) : (s.setCe e x).rd = s.rd := rfl
@[simp] theorem setCe_sent (e : Nat) (x : CEngine) : (s.setCe e x).sent = s.sent := rfl
@[simp] theorem setCe_freeCtr (e : Nat) (x : CEngine) : (s.setCe e x).freeCtr = s.freeCtr := rfl
@[simp] theorem setCe_pending (e : Nat) (x : CEngine) : (s.setCe e x).pending = s.pending := rfl

/-! ### modFlt -/

@[simp] theorem modFlt_fuse (f : Flt → Flt) : (s.modFlt f).fuse = s.fuse := rfl
@[simp] theorem modFlt_regs (f : Flt → Flt) : (s.modFlt f).regs = s.regs := rfl
@[simp] theorem modFlt_force (f : Flt → Flt) : (s.modFlt f).force = s.force := rfl
@[simp] theorem modFlt_holdR (f : Flt → Flt) : (s.modFlt f).holdR = s.holdR := rfl
@[simp] theorem modFlt_holdW (f : Flt → Flt) : (s.modFlt f).holdW = s.holdW := rfl
@[simp] theorem modFlt_loads (f : Flt → Flt) : (s.modFlt f).loads = s.loads := rfl
@[simp] theorem modFlt_gpio (f : Flt → Flt) : (s.modFlt f).gpio = s.gpio := rfl
@[simp] theorem modFlt_clk (f : Flt → Flt) : (s.modFlt f).clk = s.clk := rfl
@[simp] theorem modFlt_dom (f : Flt → Flt) : (s.modFlt f).dom = s.dom := rfl
@[simp] theorem modFlt_evts (f : Flt → Flt) : (s.modFlt f).evts = s.evts := rfl
@[simp] theorem modFlt_thm (f : Flt → Flt) : (s.modFlt f).thm = s.thm := rfl
@[simp] theorem modFlt_ic (f : Flt → Flt) : (s.modFlt f).ic = s.ic := rfl
@[simp] theorem modFlt_win (f : Flt → Flt) : (s.modFlt f).win = s.win := rfl
@[simp] theorem modFlt_pll (f : Flt → Flt) : (s.modFlt f).pll = s.pll := rfl
@[simp] theorem modFlt_seq (f : Flt → Flt) : (s.modFlt f).seq = s.seq := rfl
@[simp] theorem modFlt_boot (f : Flt → Flt) : (s.modFlt f).boot = s.boot := rfl
@[simp] theorem modFlt_flash (f : Flt → Flt) : (s.modFlt f).flash = s.flash := rfl
@[simp] theorem modFlt_flops (f : Flt → Flt) : (s.modFlt f).flops = s.flops := rfl
@[simp] theorem modFlt_dram (f : Flt → Flt) : (s.modFlt f).dram = s.dram := rfl
@[simp] theorem modFlt_dch (f : Flt → Flt) : (s.modFlt f).dch = s.dch := rfl
@[simp] theorem modFlt_dctl (f : Flt → Flt) : (s.modFlt f).dctl = s.dctl := rfl
@[simp] theorem modFlt_qf (f : Flt → Flt) : (s.modFlt f).qf = s.qf := rfl
@[simp] theorem modFlt_pools (f : Flt → Flt) : (s.modFlt f).pools = s.pools := rfl
@[simp] theorem modFlt_lnd (f : Flt → Flt) : (s.modFlt f).lnd = s.lnd := rfl
@[simp] theorem modFlt_hdrs (f : Flt → Flt) : (s.modFlt f).hdrs = s.hdrs := rfl
@[simp] theorem modFlt_xcv (f : Flt → Flt) : (s.modFlt f).xcv = s.xcv := rfl
@[simp] theorem modFlt_fct (f : Flt → Flt) : (s.modFlt f).fct = s.fct := rfl
@[simp] theorem modFlt_cod (f : Flt → Flt) : (s.modFlt f).cod = s.cod := rfl
@[simp] theorem modFlt_play (f : Flt → Flt) : (s.modFlt f).play = s.play := rfl
@[simp] theorem modFlt_sch (f : Flt → Flt) : (s.modFlt f).sch = s.sch := rfl
@[simp] theorem modFlt_ptp (f : Flt → Flt) : (s.modFlt f).ptp = s.ptp := rfl
@[simp] theorem modFlt_dma (f : Flt → Flt) : (s.modFlt f).dma = s.dma := rfl
@[simp] theorem modFlt_dmaArb (f : Flt → Flt) : (s.modFlt f).dmaArb = s.dmaArb := rfl
@[simp] theorem modFlt_hostOpen (f : Flt → Flt) : (s.modFlt f).hostOpen = s.hostOpen := rfl
@[simp] theorem modFlt_answers (f : Flt → Flt) : (s.modFlt f).answers = s.answers := rfl
@[simp] theorem modFlt_rd (f : Flt → Flt) : (s.modFlt f).rd = s.rd := rfl
@[simp] theorem modFlt_sent (f : Flt → Flt) : (s.modFlt f).sent = s.sent := rfl
@[simp] theorem modFlt_freeCtr (f : Flt → Flt) : (s.modFlt f).freeCtr = s.freeCtr := rfl
@[simp] theorem modFlt_pending (f : Flt → Flt) : (s.modFlt f).pending = s.pending := rfl

/-! ### setDma -/

@[simp] theorem setDma_fuse (k : Nat) (x : DmaChan) : (s.setDma k x).fuse = s.fuse := rfl
@[simp] theorem setDma_regs (k : Nat) (x : DmaChan) : (s.setDma k x).regs = s.regs := rfl
@[simp] theorem setDma_force (k : Nat) (x : DmaChan) : (s.setDma k x).force = s.force := rfl
@[simp] theorem setDma_holdR (k : Nat) (x : DmaChan) : (s.setDma k x).holdR = s.holdR := rfl
@[simp] theorem setDma_holdW (k : Nat) (x : DmaChan) : (s.setDma k x).holdW = s.holdW := rfl
@[simp] theorem setDma_loads (k : Nat) (x : DmaChan) : (s.setDma k x).loads = s.loads := rfl
@[simp] theorem setDma_gpio (k : Nat) (x : DmaChan) : (s.setDma k x).gpio = s.gpio := rfl
@[simp] theorem setDma_clk (k : Nat) (x : DmaChan) : (s.setDma k x).clk = s.clk := rfl
@[simp] theorem setDma_dom (k : Nat) (x : DmaChan) : (s.setDma k x).dom = s.dom := rfl
@[simp] theorem setDma_evts (k : Nat) (x : DmaChan) : (s.setDma k x).evts = s.evts := rfl
@[simp] theorem setDma_thm (k : Nat) (x : DmaChan) : (s.setDma k x).thm = s.thm := rfl
@[simp] theorem setDma_flt (k : Nat) (x : DmaChan) : (s.setDma k x).flt = s.flt := rfl
@[simp] theorem setDma_ic (k : Nat) (x : DmaChan) : (s.setDma k x).ic = s.ic := rfl
@[simp] theorem setDma_win (k : Nat) (x : DmaChan) : (s.setDma k x).win = s.win := rfl
@[simp] theorem setDma_pll (k : Nat) (x : DmaChan) : (s.setDma k x).pll = s.pll := rfl
@[simp] theorem setDma_seq (k : Nat) (x : DmaChan) : (s.setDma k x).seq = s.seq := rfl
@[simp] theorem setDma_boot (k : Nat) (x : DmaChan) : (s.setDma k x).boot = s.boot := rfl
@[simp] theorem setDma_flash (k : Nat) (x : DmaChan) : (s.setDma k x).flash = s.flash := rfl
@[simp] theorem setDma_flops (k : Nat) (x : DmaChan) : (s.setDma k x).flops = s.flops := rfl
@[simp] theorem setDma_dram (k : Nat) (x : DmaChan) : (s.setDma k x).dram = s.dram := rfl
@[simp] theorem setDma_dch (k : Nat) (x : DmaChan) : (s.setDma k x).dch = s.dch := rfl
@[simp] theorem setDma_dctl (k : Nat) (x : DmaChan) : (s.setDma k x).dctl = s.dctl := rfl
@[simp] theorem setDma_qf (k : Nat) (x : DmaChan) : (s.setDma k x).qf = s.qf := rfl
@[simp] theorem setDma_pools (k : Nat) (x : DmaChan) : (s.setDma k x).pools = s.pools := rfl
@[simp] theorem setDma_lnd (k : Nat) (x : DmaChan) : (s.setDma k x).lnd = s.lnd := rfl
@[simp] theorem setDma_hdrs (k : Nat) (x : DmaChan) : (s.setDma k x).hdrs = s.hdrs := rfl
@[simp] theorem setDma_xcv (k : Nat) (x : DmaChan) : (s.setDma k x).xcv = s.xcv := rfl
@[simp] theorem setDma_fct (k : Nat) (x : DmaChan) : (s.setDma k x).fct = s.fct := rfl
@[simp] theorem setDma_cod (k : Nat) (x : DmaChan) : (s.setDma k x).cod = s.cod := rfl
@[simp] theorem setDma_play (k : Nat) (x : DmaChan) : (s.setDma k x).play = s.play := rfl
@[simp] theorem setDma_sch (k : Nat) (x : DmaChan) : (s.setDma k x).sch = s.sch := rfl
@[simp] theorem setDma_ptp (k : Nat) (x : DmaChan) : (s.setDma k x).ptp = s.ptp := rfl
@[simp] theorem setDma_dmaArb (k : Nat) (x : DmaChan) : (s.setDma k x).dmaArb = s.dmaArb := rfl
@[simp] theorem setDma_hostOpen (k : Nat) (x : DmaChan) : (s.setDma k x).hostOpen = s.hostOpen := rfl
@[simp] theorem setDma_answers (k : Nat) (x : DmaChan) : (s.setDma k x).answers = s.answers := rfl
@[simp] theorem setDma_rd (k : Nat) (x : DmaChan) : (s.setDma k x).rd = s.rd := rfl
@[simp] theorem setDma_sent (k : Nat) (x : DmaChan) : (s.setDma k x).sent = s.sent := rfl
@[simp] theorem setDma_freeCtr (k : Nat) (x : DmaChan) : (s.setDma k x).freeCtr = s.freeCtr := rfl
@[simp] theorem setDma_pending (k : Nat) (x : DmaChan) : (s.setDma k x).pending = s.pending := rfl

/-! ### setDc -/

@[simp] theorem setDc_fuse (c : Nat) (x : DChan) : (s.setDc c x).fuse = s.fuse := rfl
@[simp] theorem setDc_regs (c : Nat) (x : DChan) : (s.setDc c x).regs = s.regs := rfl
@[simp] theorem setDc_force (c : Nat) (x : DChan) : (s.setDc c x).force = s.force := rfl
@[simp] theorem setDc_holdR (c : Nat) (x : DChan) : (s.setDc c x).holdR = s.holdR := rfl
@[simp] theorem setDc_holdW (c : Nat) (x : DChan) : (s.setDc c x).holdW = s.holdW := rfl
@[simp] theorem setDc_loads (c : Nat) (x : DChan) : (s.setDc c x).loads = s.loads := rfl
@[simp] theorem setDc_gpio (c : Nat) (x : DChan) : (s.setDc c x).gpio = s.gpio := rfl
@[simp] theorem setDc_clk (c : Nat) (x : DChan) : (s.setDc c x).clk = s.clk := rfl
@[simp] theorem setDc_dom (c : Nat) (x : DChan) : (s.setDc c x).dom = s.dom := rfl
@[simp] theorem setDc_evts (c : Nat) (x : DChan) : (s.setDc c x).evts = s.evts := rfl
@[simp] theorem setDc_thm (c : Nat) (x : DChan) : (s.setDc c x).thm = s.thm := rfl
@[simp] theorem setDc_flt (c : Nat) (x : DChan) : (s.setDc c x).flt = s.flt := rfl
@[simp] theorem setDc_ic (c : Nat) (x : DChan) : (s.setDc c x).ic = s.ic := rfl
@[simp] theorem setDc_win (c : Nat) (x : DChan) : (s.setDc c x).win = s.win := rfl
@[simp] theorem setDc_pll (c : Nat) (x : DChan) : (s.setDc c x).pll = s.pll := rfl
@[simp] theorem setDc_seq (c : Nat) (x : DChan) : (s.setDc c x).seq = s.seq := rfl
@[simp] theorem setDc_boot (c : Nat) (x : DChan) : (s.setDc c x).boot = s.boot := rfl
@[simp] theorem setDc_flash (c : Nat) (x : DChan) : (s.setDc c x).flash = s.flash := rfl
@[simp] theorem setDc_flops (c : Nat) (x : DChan) : (s.setDc c x).flops = s.flops := rfl
@[simp] theorem setDc_dram (c : Nat) (x : DChan) : (s.setDc c x).dram = s.dram := rfl
@[simp] theorem setDc_dctl (c : Nat) (x : DChan) : (s.setDc c x).dctl = s.dctl := rfl
@[simp] theorem setDc_qf (c : Nat) (x : DChan) : (s.setDc c x).qf = s.qf := rfl
@[simp] theorem setDc_pools (c : Nat) (x : DChan) : (s.setDc c x).pools = s.pools := rfl
@[simp] theorem setDc_lnd (c : Nat) (x : DChan) : (s.setDc c x).lnd = s.lnd := rfl
@[simp] theorem setDc_hdrs (c : Nat) (x : DChan) : (s.setDc c x).hdrs = s.hdrs := rfl
@[simp] theorem setDc_xcv (c : Nat) (x : DChan) : (s.setDc c x).xcv = s.xcv := rfl
@[simp] theorem setDc_fct (c : Nat) (x : DChan) : (s.setDc c x).fct = s.fct := rfl
@[simp] theorem setDc_cod (c : Nat) (x : DChan) : (s.setDc c x).cod = s.cod := rfl
@[simp] theorem setDc_play (c : Nat) (x : DChan) : (s.setDc c x).play = s.play := rfl
@[simp] theorem setDc_sch (c : Nat) (x : DChan) : (s.setDc c x).sch = s.sch := rfl
@[simp] theorem setDc_ptp (c : Nat) (x : DChan) : (s.setDc c x).ptp = s.ptp := rfl
@[simp] theorem setDc_dma (c : Nat) (x : DChan) : (s.setDc c x).dma = s.dma := rfl
@[simp] theorem setDc_dmaArb (c : Nat) (x : DChan) : (s.setDc c x).dmaArb = s.dmaArb := rfl
@[simp] theorem setDc_hostOpen (c : Nat) (x : DChan) : (s.setDc c x).hostOpen = s.hostOpen := rfl
@[simp] theorem setDc_answers (c : Nat) (x : DChan) : (s.setDc c x).answers = s.answers := rfl
@[simp] theorem setDc_rd (c : Nat) (x : DChan) : (s.setDc c x).rd = s.rd := rfl
@[simp] theorem setDc_sent (c : Nat) (x : DChan) : (s.setDc c x).sent = s.sent := rfl
@[simp] theorem setDc_freeCtr (c : Nat) (x : DChan) : (s.setDc c x).freeCtr = s.freeCtr := rfl
@[simp] theorem setDc_pending (c : Nat) (x : DChan) : (s.setDc c x).pending = s.pending := rfl

/-! ### setDk -/

@[simp] theorem setDk_fuse (d : Nat) (x : DCtl) : (s.setDk d x).fuse = s.fuse := rfl
@[simp] theorem setDk_regs (d : Nat) (x : DCtl) : (s.setDk d x).regs = s.regs := rfl
@[simp] theorem setDk_force (d : Nat) (x : DCtl) : (s.setDk d x).force = s.force := rfl
@[simp] theorem setDk_holdR (d : Nat) (x : DCtl) : (s.setDk d x).holdR = s.holdR := rfl
@[simp] theorem setDk_holdW (d : Nat) (x : DCtl) : (s.setDk d x).holdW = s.holdW := rfl
@[simp] theorem setDk_loads (d : Nat) (x : DCtl) : (s.setDk d x).loads = s.loads := rfl
@[simp] theorem setDk_gpio (d : Nat) (x : DCtl) : (s.setDk d x).gpio = s.gpio := rfl
@[simp] theorem setDk_clk (d : Nat) (x : DCtl) : (s.setDk d x).clk = s.clk := rfl
@[simp] theorem setDk_dom (d : Nat) (x : DCtl) : (s.setDk d x).dom = s.dom := rfl
@[simp] theorem setDk_evts (d : Nat) (x : DCtl) : (s.setDk d x).evts = s.evts := rfl
@[simp] theorem setDk_thm (d : Nat) (x : DCtl) : (s.setDk d x).thm = s.thm := rfl
@[simp] theorem setDk_flt (d : Nat) (x : DCtl) : (s.setDk d x).flt = s.flt := rfl
@[simp] theorem setDk_ic (d : Nat) (x : DCtl) : (s.setDk d x).ic = s.ic := rfl
@[simp] theorem setDk_win (d : Nat) (x : DCtl) : (s.setDk d x).win = s.win := rfl
@[simp] theorem setDk_pll (d : Nat) (x : DCtl) : (s.setDk d x).pll = s.pll := rfl
@[simp] theorem setDk_seq (d : Nat) (x : DCtl) : (s.setDk d x).seq = s.seq := rfl
@[simp] theorem setDk_boot (d : Nat) (x : DCtl) : (s.setDk d x).boot = s.boot := rfl
@[simp] theorem setDk_flash (d : Nat) (x : DCtl) : (s.setDk d x).flash = s.flash := rfl
@[simp] theorem setDk_flops (d : Nat) (x : DCtl) : (s.setDk d x).flops = s.flops := rfl
@[simp] theorem setDk_dram (d : Nat) (x : DCtl) : (s.setDk d x).dram = s.dram := rfl
@[simp] theorem setDk_dch (d : Nat) (x : DCtl) : (s.setDk d x).dch = s.dch := rfl
@[simp] theorem setDk_qf (d : Nat) (x : DCtl) : (s.setDk d x).qf = s.qf := rfl
@[simp] theorem setDk_pools (d : Nat) (x : DCtl) : (s.setDk d x).pools = s.pools := rfl
@[simp] theorem setDk_lnd (d : Nat) (x : DCtl) : (s.setDk d x).lnd = s.lnd := rfl
@[simp] theorem setDk_hdrs (d : Nat) (x : DCtl) : (s.setDk d x).hdrs = s.hdrs := rfl
@[simp] theorem setDk_xcv (d : Nat) (x : DCtl) : (s.setDk d x).xcv = s.xcv := rfl
@[simp] theorem setDk_fct (d : Nat) (x : DCtl) : (s.setDk d x).fct = s.fct := rfl
@[simp] theorem setDk_cod (d : Nat) (x : DCtl) : (s.setDk d x).cod = s.cod := rfl
@[simp] theorem setDk_play (d : Nat) (x : DCtl) : (s.setDk d x).play = s.play := rfl
@[simp] theorem setDk_sch (d : Nat) (x : DCtl) : (s.setDk d x).sch = s.sch := rfl
@[simp] theorem setDk_ptp (d : Nat) (x : DCtl) : (s.setDk d x).ptp = s.ptp := rfl
@[simp] theorem setDk_dma (d : Nat) (x : DCtl) : (s.setDk d x).dma = s.dma := rfl
@[simp] theorem setDk_dmaArb (d : Nat) (x : DCtl) : (s.setDk d x).dmaArb = s.dmaArb := rfl
@[simp] theorem setDk_hostOpen (d : Nat) (x : DCtl) : (s.setDk d x).hostOpen = s.hostOpen := rfl
@[simp] theorem setDk_answers (d : Nat) (x : DCtl) : (s.setDk d x).answers = s.answers := rfl
@[simp] theorem setDk_rd (d : Nat) (x : DCtl) : (s.setDk d x).rd = s.rd := rfl
@[simp] theorem setDk_sent (d : Nat) (x : DCtl) : (s.setDk d x).sent = s.sent := rfl
@[simp] theorem setDk_freeCtr (d : Nat) (x : DCtl) : (s.setDk d x).freeCtr = s.freeCtr := rfl
@[simp] theorem setDk_pending (d : Nat) (x : DCtl) : (s.setDk d x).pending = s.pending := rfl

/-! ### setSp -/

@[simp] theorem setSp_fuse (p : Nat) (x : SPort) : (s.setSp p x).fuse = s.fuse := rfl
@[simp] theorem setSp_regs (p : Nat) (x : SPort) : (s.setSp p x).regs = s.regs := rfl
@[simp] theorem setSp_force (p : Nat) (x : SPort) : (s.setSp p x).force = s.force := rfl
@[simp] theorem setSp_holdR (p : Nat) (x : SPort) : (s.setSp p x).holdR = s.holdR := rfl
@[simp] theorem setSp_holdW (p : Nat) (x : SPort) : (s.setSp p x).holdW = s.holdW := rfl
@[simp] theorem setSp_loads (p : Nat) (x : SPort) : (s.setSp p x).loads = s.loads := rfl
@[simp] theorem setSp_gpio (p : Nat) (x : SPort) : (s.setSp p x).gpio = s.gpio := rfl
@[simp] theorem setSp_clk (p : Nat) (x : SPort) : (s.setSp p x).clk = s.clk := rfl
@[simp] theorem setSp_dom (p : Nat) (x : SPort) : (s.setSp p x).dom = s.dom := rfl
@[simp] theorem setSp_evts (p : Nat) (x : SPort) : (s.setSp p x).evts = s.evts := rfl
@[simp] theorem setSp_thm (p : Nat) (x : SPort) : (s.setSp p x).thm = s.thm := rfl
@[simp] theorem setSp_flt (p : Nat) (x : SPort) : (s.setSp p x).flt = s.flt := rfl
@[simp] theorem setSp_ic (p : Nat) (x : SPort) : (s.setSp p x).ic = s.ic := rfl
@[simp] theorem setSp_win (p : Nat) (x : SPort) : (s.setSp p x).win = s.win := rfl
@[simp] theorem setSp_pll (p : Nat) (x : SPort) : (s.setSp p x).pll = s.pll := rfl
@[simp] theorem setSp_seq (p : Nat) (x : SPort) : (s.setSp p x).seq = s.seq := rfl
@[simp] theorem setSp_boot (p : Nat) (x : SPort) : (s.setSp p x).boot = s.boot := rfl
@[simp] theorem setSp_flash (p : Nat) (x : SPort) : (s.setSp p x).flash = s.flash := rfl
@[simp] theorem setSp_flops (p : Nat) (x : SPort) : (s.setSp p x).flops = s.flops := rfl
@[simp] theorem setSp_dram (p : Nat) (x : SPort) : (s.setSp p x).dram = s.dram := rfl
@[simp] theorem setSp_dch (p : Nat) (x : SPort) : (s.setSp p x).dch = s.dch := rfl
@[simp] theorem setSp_dctl (p : Nat) (x : SPort) : (s.setSp p x).dctl = s.dctl := rfl
@[simp] theorem setSp_qf (p : Nat) (x : SPort) : (s.setSp p x).qf = s.qf := rfl
@[simp] theorem setSp_pools (p : Nat) (x : SPort) : (s.setSp p x).pools = s.pools := rfl
@[simp] theorem setSp_lnd (p : Nat) (x : SPort) : (s.setSp p x).lnd = s.lnd := rfl
@[simp] theorem setSp_hdrs (p : Nat) (x : SPort) : (s.setSp p x).hdrs = s.hdrs := rfl
@[simp] theorem setSp_xcv (p : Nat) (x : SPort) : (s.setSp p x).xcv = s.xcv := rfl
@[simp] theorem setSp_fct (p : Nat) (x : SPort) : (s.setSp p x).fct = s.fct := rfl
@[simp] theorem setSp_cod (p : Nat) (x : SPort) : (s.setSp p x).cod = s.cod := rfl
@[simp] theorem setSp_play (p : Nat) (x : SPort) : (s.setSp p x).play = s.play := rfl
@[simp] theorem setSp_ptp (p : Nat) (x : SPort) : (s.setSp p x).ptp = s.ptp := rfl
@[simp] theorem setSp_dma (p : Nat) (x : SPort) : (s.setSp p x).dma = s.dma := rfl
@[simp] theorem setSp_dmaArb (p : Nat) (x : SPort) : (s.setSp p x).dmaArb = s.dmaArb := rfl
@[simp] theorem setSp_hostOpen (p : Nat) (x : SPort) : (s.setSp p x).hostOpen = s.hostOpen := rfl
@[simp] theorem setSp_answers (p : Nat) (x : SPort) : (s.setSp p x).answers = s.answers := rfl
@[simp] theorem setSp_rd (p : Nat) (x : SPort) : (s.setSp p x).rd = s.rd := rfl
@[simp] theorem setSp_sent (p : Nat) (x : SPort) : (s.setSp p x).sent = s.sent := rfl
@[simp] theorem setSp_freeCtr (p : Nat) (x : SPort) : (s.setSp p x).freeCtr = s.freeCtr := rfl
@[simp] theorem setSp_pending (p : Nat) (x : SPort) : (s.setSp p x).pending = s.pending := rfl

/-! ### setSq -/

@[simp] theorem setSq_fuse (q : Nat) (x : SQueue) : (s.setSq q x).fuse = s.fuse := rfl
@[simp] theorem setSq_regs (q : Nat) (x : SQueue) : (s.setSq q x).regs = s.regs := rfl
@[simp] theorem setSq_force (q : Nat) (x : SQueue) : (s.setSq q x).force = s.force := rfl
@[simp] theorem setSq_holdR (q : Nat) (x : SQueue) : (s.setSq q x).holdR = s.holdR := rfl
@[simp] theorem setSq_holdW (q : Nat) (x : SQueue) : (s.setSq q x).holdW = s.holdW := rfl
@[simp] theorem setSq_loads (q : Nat) (x : SQueue) : (s.setSq q x).loads = s.loads := rfl
@[simp] theorem setSq_gpio (q : Nat) (x : SQueue) : (s.setSq q x).gpio = s.gpio := rfl
@[simp] theorem setSq_clk (q : Nat) (x : SQueue) : (s.setSq q x).clk = s.clk := rfl
@[simp] theorem setSq_dom (q : Nat) (x : SQueue) : (s.setSq q x).dom = s.dom := rfl
@[simp] theorem setSq_evts (q : Nat) (x : SQueue) : (s.setSq q x).evts = s.evts := rfl
@[simp] theorem setSq_thm (q : Nat) (x : SQueue) : (s.setSq q x).thm = s.thm := rfl
@[simp] theorem setSq_flt (q : Nat) (x : SQueue) : (s.setSq q x).flt = s.flt := rfl
@[simp] theorem setSq_ic (q : Nat) (x : SQueue) : (s.setSq q x).ic = s.ic := rfl
@[simp] theorem setSq_win (q : Nat) (x : SQueue) : (s.setSq q x).win = s.win := rfl
@[simp] theorem setSq_pll (q : Nat) (x : SQueue) : (s.setSq q x).pll = s.pll := rfl
@[simp] theorem setSq_seq (q : Nat) (x : SQueue) : (s.setSq q x).seq = s.seq := rfl
@[simp] theorem setSq_boot (q : Nat) (x : SQueue) : (s.setSq q x).boot = s.boot := rfl
@[simp] theorem setSq_flash (q : Nat) (x : SQueue) : (s.setSq q x).flash = s.flash := rfl
@[simp] theorem setSq_flops (q : Nat) (x : SQueue) : (s.setSq q x).flops = s.flops := rfl
@[simp] theorem setSq_dram (q : Nat) (x : SQueue) : (s.setSq q x).dram = s.dram := rfl
@[simp] theorem setSq_dch (q : Nat) (x : SQueue) : (s.setSq q x).dch = s.dch := rfl
@[simp] theorem setSq_dctl (q : Nat) (x : SQueue) : (s.setSq q x).dctl = s.dctl := rfl
@[simp] theorem setSq_qf (q : Nat) (x : SQueue) : (s.setSq q x).qf = s.qf := rfl
@[simp] theorem setSq_pools (q : Nat) (x : SQueue) : (s.setSq q x).pools = s.pools := rfl
@[simp] theorem setSq_lnd (q : Nat) (x : SQueue) : (s.setSq q x).lnd = s.lnd := rfl
@[simp] theorem setSq_hdrs (q : Nat) (x : SQueue) : (s.setSq q x).hdrs = s.hdrs := rfl
@[simp] theorem setSq_xcv (q : Nat) (x : SQueue) : (s.setSq q x).xcv = s.xcv := rfl
@[simp] theorem setSq_fct (q : Nat) (x : SQueue) : (s.setSq q x).fct = s.fct := rfl
@[simp] theorem setSq_cod (q : Nat) (x : SQueue) : (s.setSq q x).cod = s.cod := rfl
@[simp] theorem setSq_play (q : Nat) (x : SQueue) : (s.setSq q x).play = s.play := rfl
@[simp] theorem setSq_ptp (q : Nat) (x : SQueue) : (s.setSq q x).ptp = s.ptp := rfl
@[simp] theorem setSq_dma (q : Nat) (x : SQueue) : (s.setSq q x).dma = s.dma := rfl
@[simp] theorem setSq_dmaArb (q : Nat) (x : SQueue) : (s.setSq q x).dmaArb = s.dmaArb := rfl
@[simp] theorem setSq_hostOpen (q : Nat) (x : SQueue) : (s.setSq q x).hostOpen = s.hostOpen := rfl
@[simp] theorem setSq_answers (q : Nat) (x : SQueue) : (s.setSq q x).answers = s.answers := rfl
@[simp] theorem setSq_rd (q : Nat) (x : SQueue) : (s.setSq q x).rd = s.rd := rfl
@[simp] theorem setSq_sent (q : Nat) (x : SQueue) : (s.setSq q x).sent = s.sent := rfl
@[simp] theorem setSq_freeCtr (q : Nat) (x : SQueue) : (s.setSq q x).freeCtr = s.freeCtr := rfl
@[simp] theorem setSq_pending (q : Nat) (x : SQueue) : (s.setSq q x).pending = s.pending := rfl

/-! ### setEng -/

@[simp] theorem setEng_fuse (e : Nat) (x : FEngine) : (s.setEng e x).fuse = s.fuse := rfl
@[simp] theorem setEng_regs (e : Nat) (x : FEngine) : (s.setEng e x).regs = s.regs := rfl
@[simp] theorem setEng_force (e : Nat) (x : FEngine) : (s.setEng e x).force = s.force := rfl
@[simp] theorem setEng_holdR (e : Nat) (x : FEngine) : (s.setEng e x).holdR = s.holdR := rfl
@[simp] theorem setEng_holdW (e : Nat) (x : FEngine) : (s.setEng e x).holdW = s.holdW := rfl
@[simp] theorem setEng_loads (e : Nat) (x : FEngine) : (s.setEng e x).loads = s.loads := rfl
@[simp] theorem setEng_gpio (e : Nat) (x : FEngine) : (s.setEng e x).gpio = s.gpio := rfl
@[simp] theorem setEng_clk (e : Nat) (x : FEngine) : (s.setEng e x).clk = s.clk := rfl
@[simp] theorem setEng_dom (e : Nat) (x : FEngine) : (s.setEng e x).dom = s.dom := rfl
@[simp] theorem setEng_evts (e : Nat) (x : FEngine) : (s.setEng e x).evts = s.evts := rfl
@[simp] theorem setEng_thm (e : Nat) (x : FEngine) : (s.setEng e x).thm = s.thm := rfl
@[simp] theorem setEng_flt (e : Nat) (x : FEngine) : (s.setEng e x).flt = s.flt := rfl
@[simp] theorem setEng_ic (e : Nat) (x : FEngine) : (s.setEng e x).ic = s.ic := rfl
@[simp] theorem setEng_win (e : Nat) (x : FEngine) : (s.setEng e x).win = s.win := rfl
@[simp] theorem setEng_pll (e : Nat) (x : FEngine) : (s.setEng e x).pll = s.pll := rfl
@[simp] theorem setEng_seq (e : Nat) (x : FEngine) : (s.setEng e x).seq = s.seq := rfl
@[simp] theorem setEng_boot (e : Nat) (x : FEngine) : (s.setEng e x).boot = s.boot := rfl
@[simp] theorem setEng_flash (e : Nat) (x : FEngine) : (s.setEng e x).flash = s.flash := rfl
@[simp] theorem setEng_flops (e : Nat) (x : FEngine) : (s.setEng e x).flops = s.flops := rfl
@[simp] theorem setEng_dram (e : Nat) (x : FEngine) : (s.setEng e x).dram = s.dram := rfl
@[simp] theorem setEng_dch (e : Nat) (x : FEngine) : (s.setEng e x).dch = s.dch := rfl
@[simp] theorem setEng_dctl (e : Nat) (x : FEngine) : (s.setEng e x).dctl = s.dctl := rfl
@[simp] theorem setEng_qf (e : Nat) (x : FEngine) : (s.setEng e x).qf = s.qf := rfl
@[simp] theorem setEng_pools (e : Nat) (x : FEngine) : (s.setEng e x).pools = s.pools := rfl
@[simp] theorem setEng_lnd (e : Nat) (x : FEngine) : (s.setEng e x).lnd = s.lnd := rfl
@[simp] theorem setEng_hdrs (e : Nat) (x : FEngine) : (s.setEng e x).hdrs = s.hdrs := rfl
@[simp] theorem setEng_xcv (e : Nat) (x : FEngine) : (s.setEng e x).xcv = s.xcv := rfl
@[simp] theorem setEng_cod (e : Nat) (x : FEngine) : (s.setEng e x).cod = s.cod := rfl
@[simp] theorem setEng_play (e : Nat) (x : FEngine) : (s.setEng e x).play = s.play := rfl
@[simp] theorem setEng_sch (e : Nat) (x : FEngine) : (s.setEng e x).sch = s.sch := rfl
@[simp] theorem setEng_ptp (e : Nat) (x : FEngine) : (s.setEng e x).ptp = s.ptp := rfl
@[simp] theorem setEng_dma (e : Nat) (x : FEngine) : (s.setEng e x).dma = s.dma := rfl
@[simp] theorem setEng_dmaArb (e : Nat) (x : FEngine) : (s.setEng e x).dmaArb = s.dmaArb := rfl
@[simp] theorem setEng_hostOpen (e : Nat) (x : FEngine) : (s.setEng e x).hostOpen = s.hostOpen := rfl
@[simp] theorem setEng_answers (e : Nat) (x : FEngine) : (s.setEng e x).answers = s.answers := rfl
@[simp] theorem setEng_rd (e : Nat) (x : FEngine) : (s.setEng e x).rd = s.rd := rfl
@[simp] theorem setEng_sent (e : Nat) (x : FEngine) : (s.setEng e x).sent = s.sent := rfl
@[simp] theorem setEng_freeCtr (e : Nat) (x : FEngine) : (s.setEng e x).freeCtr = s.freeCtr := rfl
@[simp] theorem setEng_pending (e : Nat) (x : FEngine) : (s.setEng e x).pending = s.pending := rfl

/-! ### setFs -/

@[simp] theorem setFs_fuse (k : Nat) (x : FStream) : (s.setFs k x).fuse = s.fuse := rfl
@[simp] theorem setFs_regs (k : Nat) (x : FStream) : (s.setFs k x).regs = s.regs := rfl
@[simp] theorem setFs_force (k : Nat) (x : FStream) : (s.setFs k x).force = s.force := rfl
@[simp] theorem setFs_holdR (k : Nat) (x : FStream) : (s.setFs k x).holdR = s.holdR := rfl
@[simp] theorem setFs_holdW (k : Nat) (x : FStream) : (s.setFs k x).holdW = s.holdW := rfl
@[simp] theorem setFs_loads (k : Nat) (x : FStream) : (s.setFs k x).loads = s.loads := rfl
@[simp] theorem setFs_gpio (k : Nat) (x : FStream) : (s.setFs k x).gpio = s.gpio := rfl
@[simp] theorem setFs_clk (k : Nat) (x : FStream) : (s.setFs k x).clk = s.clk := rfl
@[simp] theorem setFs_dom (k : Nat) (x : FStream) : (s.setFs k x).dom = s.dom := rfl
@[simp] theorem setFs_evts (k : Nat) (x : FStream) : (s.setFs k x).evts = s.evts := rfl
@[simp] theorem setFs_thm (k : Nat) (x : FStream) : (s.setFs k x).thm = s.thm := rfl
@[simp] theorem setFs_flt (k : Nat) (x : FStream) : (s.setFs k x).flt = s.flt := rfl
@[simp] theorem setFs_ic (k : Nat) (x : FStream) : (s.setFs k x).ic = s.ic := rfl
@[simp] theorem setFs_win (k : Nat) (x : FStream) : (s.setFs k x).win = s.win := rfl
@[simp] theorem setFs_pll (k : Nat) (x : FStream) : (s.setFs k x).pll = s.pll := rfl
@[simp] theorem setFs_seq (k : Nat) (x : FStream) : (s.setFs k x).seq = s.seq := rfl
@[simp] theorem setFs_boot (k : Nat) (x : FStream) : (s.setFs k x).boot = s.boot := rfl
@[simp] theorem setFs_flash (k : Nat) (x : FStream) : (s.setFs k x).flash = s.flash := rfl
@[simp] theorem setFs_flops (k : Nat) (x : FStream) : (s.setFs k x).flops = s.flops := rfl
@[simp] theorem setFs_dram (k : Nat) (x : FStream) : (s.setFs k x).dram = s.dram := rfl
@[simp] theorem setFs_dch (k : Nat) (x : FStream) : (s.setFs k x).dch = s.dch := rfl
@[simp] theorem setFs_dctl (k : Nat) (x : FStream) : (s.setFs k x).dctl = s.dctl := rfl
@[simp] theorem setFs_qf (k : Nat) (x : FStream) : (s.setFs k x).qf = s.qf := rfl
@[simp] theorem setFs_pools (k : Nat) (x : FStream) : (s.setFs k x).pools = s.pools := rfl
@[simp] theorem setFs_lnd (k : Nat) (x : FStream) : (s.setFs k x).lnd = s.lnd := rfl
@[simp] theorem setFs_hdrs (k : Nat) (x : FStream) : (s.setFs k x).hdrs = s.hdrs := rfl
@[simp] theorem setFs_xcv (k : Nat) (x : FStream) : (s.setFs k x).xcv = s.xcv := rfl
@[simp] theorem setFs_cod (k : Nat) (x : FStream) : (s.setFs k x).cod = s.cod := rfl
@[simp] theorem setFs_play (k : Nat) (x : FStream) : (s.setFs k x).play = s.play := rfl
@[simp] theorem setFs_sch (k : Nat) (x : FStream) : (s.setFs k x).sch = s.sch := rfl
@[simp] theorem setFs_ptp (k : Nat) (x : FStream) : (s.setFs k x).ptp = s.ptp := rfl
@[simp] theorem setFs_dma (k : Nat) (x : FStream) : (s.setFs k x).dma = s.dma := rfl
@[simp] theorem setFs_dmaArb (k : Nat) (x : FStream) : (s.setFs k x).dmaArb = s.dmaArb := rfl
@[simp] theorem setFs_hostOpen (k : Nat) (x : FStream) : (s.setFs k x).hostOpen = s.hostOpen := rfl
@[simp] theorem setFs_answers (k : Nat) (x : FStream) : (s.setFs k x).answers = s.answers := rfl
@[simp] theorem setFs_rd (k : Nat) (x : FStream) : (s.setFs k x).rd = s.rd := rfl
@[simp] theorem setFs_sent (k : Nat) (x : FStream) : (s.setFs k x).sent = s.sent := rfl
@[simp] theorem setFs_freeCtr (k : Nat) (x : FStream) : (s.setFs k x).freeCtr = s.freeCtr := rfl
@[simp] theorem setFs_pending (k : Nat) (x : FStream) : (s.setFs k x).pending = s.pending := rfl

/-! ### setLg -/

@[simp] theorem setLg_fuse (g : Nat) (x : LGroup) : (s.setLg g x).fuse = s.fuse := rfl
@[simp] theorem setLg_regs (g : Nat) (x : LGroup) : (s.setLg g x).regs = s.regs := rfl
@[simp] theorem setLg_force (g : Nat) (x : LGroup) : (s.setLg g x).force = s.force := rfl
@[simp] theorem setLg_holdR (g : Nat) (x : LGroup) : (s.setLg g x).holdR = s.holdR := rfl
@[simp] theorem setLg_holdW (g : Nat) (x : LGroup) : (s.setLg g x).holdW = s.holdW := rfl
@[simp] theorem setLg_loads (g : Nat) (x : LGroup) : (s.setLg g x).loads = s.loads := rfl
@[simp] theorem setLg_gpio (g : Nat) (x : LGroup) : (s.setLg g x).gpio = s.gpio := rfl
@[simp] theorem setLg_clk (g : Nat) (x : LGroup) : (s.setLg g x).clk = s.clk := rfl
@[simp] theorem setLg_dom (g : Nat) (x : LGroup) : (s.setLg g x).dom = s.dom := rfl
@[simp] theorem setLg_evts (g : Nat) (x : LGroup) : (s.setLg g x).evts = s.evts := rfl
@[simp] theorem setLg_thm (g : Nat) (x : LGroup) : (s.setLg g x).thm = s.thm := rfl
@[simp] theorem setLg_flt (g : Nat) (x : LGroup) : (s.setLg g x).flt = s.flt := rfl
@[simp] theorem setLg_ic (g : Nat) (x : LGroup) : (s.setLg g x).ic = s.ic := rfl
@[simp] theorem setLg_win (g : Nat) (x : LGroup) : (s.setLg g x).win = s.win := rfl
@[simp] theorem setLg_pll (g : Nat) (x : LGroup) : (s.setLg g x).pll = s.pll := rfl
@[simp] theorem setLg_seq (g : Nat) (x : LGroup) : (s.setLg g x).seq = s.seq := rfl
@[simp] theorem setLg_boot (g : Nat) (x : LGroup) : (s.setLg g x).boot = s.boot := rfl
@[simp] theorem setLg_flash (g : Nat) (x : LGroup) : (s.setLg g x).flash = s.flash := rfl
@[simp] theorem setLg_flops (g : Nat) (x : LGroup) : (s.setLg g x).flops = s.flops := rfl
@[simp] theorem setLg_dram (g : Nat) (x : LGroup) : (s.setLg g x).dram = s.dram := rfl
@[simp] theorem setLg_dch (g : Nat) (x : LGroup) : (s.setLg g x).dch = s.dch := rfl
@[simp] theorem setLg_dctl (g : Nat) (x : LGroup) : (s.setLg g x).dctl = s.dctl := rfl
@[simp] theorem setLg_qf (g : Nat) (x : LGroup) : (s.setLg g x).qf = s.qf := rfl
@[simp] theorem setLg_pools (g : Nat) (x : LGroup) : (s.setLg g x).pools = s.pools := rfl
@[simp] theorem setLg_hdrs (g : Nat) (x : LGroup) : (s.setLg g x).hdrs = s.hdrs := rfl
@[simp] theorem setLg_xcv (g : Nat) (x : LGroup) : (s.setLg g x).xcv = s.xcv := rfl
@[simp] theorem setLg_fct (g : Nat) (x : LGroup) : (s.setLg g x).fct = s.fct := rfl
@[simp] theorem setLg_cod (g : Nat) (x : LGroup) : (s.setLg g x).cod = s.cod := rfl
@[simp] theorem setLg_play (g : Nat) (x : LGroup) : (s.setLg g x).play = s.play := rfl
@[simp] theorem setLg_sch (g : Nat) (x : LGroup) : (s.setLg g x).sch = s.sch := rfl
@[simp] theorem setLg_ptp (g : Nat) (x : LGroup) : (s.setLg g x).ptp = s.ptp := rfl
@[simp] theorem setLg_dma (g : Nat) (x : LGroup) : (s.setLg g x).dma = s.dma := rfl
@[simp] theorem setLg_dmaArb (g : Nat) (x : LGroup) : (s.setLg g x).dmaArb = s.dmaArb := rfl
@[simp] theorem setLg_hostOpen (g : Nat) (x : LGroup) : (s.setLg g x).hostOpen = s.hostOpen := rfl
@[simp] theorem setLg_answers (g : Nat) (x : LGroup) : (s.setLg g x).answers = s.answers := rfl
@[simp] theorem setLg_rd (g : Nat) (x : LGroup) : (s.setLg g x).rd = s.rd := rfl
@[simp] theorem setLg_sent (g : Nat) (x : LGroup) : (s.setLg g x).sent = s.sent := rfl
@[simp] theorem setLg_freeCtr (g : Nat) (x : LGroup) : (s.setLg g x).freeCtr = s.freeCtr := rfl
@[simp] theorem setLg_pending (g : Nat) (x : LGroup) : (s.setLg g x).pending = s.pending := rfl

/-! ### setXg -/

@[simp] theorem setXg_fuse (g : Nat) (x : XGroup) : (s.setXg g x).fuse = s.fuse := rfl
@[simp] theorem setXg_regs (g : Nat) (x : XGroup) : (s.setXg g x).regs = s.regs := rfl
@[simp] theorem setXg_force (g : Nat) (x : XGroup) : (s.setXg g x).force = s.force := rfl
@[simp] theorem setXg_holdR (g : Nat) (x : XGroup) : (s.setXg g x).holdR = s.holdR := rfl
@[simp] theorem setXg_holdW (g : Nat) (x : XGroup) : (s.setXg g x).holdW = s.holdW := rfl
@[simp] theorem setXg_loads (g : Nat) (x : XGroup) : (s.setXg g x).loads = s.loads := rfl
@[simp] theorem setXg_gpio (g : Nat) (x : XGroup) : (s.setXg g x).gpio = s.gpio := rfl
@[simp] theorem setXg_clk (g : Nat) (x : XGroup) : (s.setXg g x).clk = s.clk := rfl
@[simp] theorem setXg_dom (g : Nat) (x : XGroup) : (s.setXg g x).dom = s.dom := rfl
@[simp] theorem setXg_evts (g : Nat) (x : XGroup) : (s.setXg g x).evts = s.evts := rfl
@[simp] theorem setXg_thm (g : Nat) (x : XGroup) : (s.setXg g x).thm = s.thm := rfl
@[simp] theorem setXg_flt (g : Nat) (x : XGroup) : (s.setXg g x).flt = s.flt := rfl
@[simp] theorem setXg_ic (g : Nat) (x : XGroup) : (s.setXg g x).ic = s.ic := rfl
@[simp] theorem setXg_win (g : Nat) (x : XGroup) : (s.setXg g x).win = s.win := rfl
@[simp] theorem setXg_pll (g : Nat) (x : XGroup) : (s.setXg g x).pll = s.pll := rfl
@[simp] theorem setXg_seq (g : Nat) (x : XGroup) : (s.setXg g x).seq = s.seq := rfl
@[simp] theorem setXg_boot (g : Nat) (x : XGroup) : (s.setXg g x).boot = s.boot := rfl
@[simp] theorem setXg_flash (g : Nat) (x : XGroup) : (s.setXg g x).flash = s.flash := rfl
@[simp] theorem setXg_flops (g : Nat) (x : XGroup) : (s.setXg g x).flops = s.flops := rfl
@[simp] theorem setXg_dram (g : Nat) (x : XGroup) : (s.setXg g x).dram = s.dram := rfl
@[simp] theorem setXg_dch (g : Nat) (x : XGroup) : (s.setXg g x).dch = s.dch := rfl
@[simp] theorem setXg_dctl (g : Nat) (x : XGroup) : (s.setXg g x).dctl = s.dctl := rfl
@[simp] theorem setXg_qf (g : Nat) (x : XGroup) : (s.setXg g x).qf = s.qf := rfl
@[simp] theorem setXg_pools (g : Nat) (x : XGroup) : (s.setXg g x).pools = s.pools := rfl
@[simp] theorem setXg_lnd (g : Nat) (x : XGroup) : (s.setXg g x).lnd = s.lnd := rfl
@[simp] theorem setXg_hdrs (g : Nat) (x : XGroup) : (s.setXg g x).hdrs = s.hdrs := rfl
@[simp] theorem setXg_fct (g : Nat) (x : XGroup) : (s.setXg g x).fct = s.fct := rfl
@[simp] theorem setXg_cod (g : Nat) (x : XGroup) : (s.setXg g x).cod = s.cod := rfl
@[simp] theorem setXg_play (g : Nat) (x : XGroup) : (s.setXg g x).play = s.play := rfl
@[simp] theorem setXg_sch (g : Nat) (x : XGroup) : (s.setXg g x).sch = s.sch := rfl
@[simp] theorem setXg_ptp (g : Nat) (x : XGroup) : (s.setXg g x).ptp = s.ptp := rfl
@[simp] theorem setXg_dma (g : Nat) (x : XGroup) : (s.setXg g x).dma = s.dma := rfl
@[simp] theorem setXg_dmaArb (g : Nat) (x : XGroup) : (s.setXg g x).dmaArb = s.dmaArb := rfl
@[simp] theorem setXg_hostOpen (g : Nat) (x : XGroup) : (s.setXg g x).hostOpen = s.hostOpen := rfl
@[simp] theorem setXg_answers (g : Nat) (x : XGroup) : (s.setXg g x).answers = s.answers := rfl
@[simp] theorem setXg_rd (g : Nat) (x : XGroup) : (s.setXg g x).rd = s.rd := rfl
@[simp] theorem setXg_sent (g : Nat) (x : XGroup) : (s.setXg g x).sent = s.sent := rfl
@[simp] theorem setXg_freeCtr (g : Nat) (x : XGroup) : (s.setXg g x).freeCtr = s.freeCtr := rfl
@[simp] theorem setXg_pending (g : Nat) (x : XGroup) : (s.setXg g x).pending = s.pending := rfl

/-! ### setPs -/

@[simp] theorem setPs_fuse (p : Nat) (x : PStream) : (s.setPs p x).fuse = s.fuse := rfl
@[simp] theorem setPs_regs (p : Nat) (x : PStream) : (s.setPs p x).regs = s.regs := rfl
@[simp] theorem setPs_force (p : Nat) (x : PStream) : (s.setPs p x).force = s.force := rfl
@[simp] theorem setPs_holdR (p : Nat) (x : PStream) : (s.setPs p x).holdR = s.holdR := rfl
@[simp] theorem setPs_holdW (p : Nat) (x : PStream) : (s.setPs p x).holdW = s.holdW := rfl
@[simp] theorem setPs_loads (p : Nat) (x : PStream) : (s.setPs p x).loads = s.loads := rfl
@[simp] theorem setPs_gpio (p : Nat) (x : PStream) : (s.setPs p x).gpio = s.gpio := rfl
@[simp] theorem setPs_clk (p : Nat) (x : PStream) : (s.setPs p x).clk = s.clk := rfl
@[simp] theorem setPs_dom (p : Nat) (x : PStream) : (s.setPs p x).dom = s.dom := rfl
@[simp] theorem setPs_evts (p : Nat) (x : PStream) : (s.setPs p x).evts = s.evts := rfl
@[simp] theorem setPs_thm (p : Nat) (x : PStream) : (s.setPs p x).thm = s.thm := rfl
@[simp] theorem setPs_flt (p : Nat) (x : PStream) : (s.setPs p x).flt = s.flt := rfl
@[simp] theorem setPs_ic (p : Nat) (x : PStream) : (s.setPs p x).ic = s.ic := rfl
@[simp] theorem setPs_win (p : Nat) (x : PStream) : (s.setPs p x).win = s.win := rfl
@[simp] theorem setPs_pll (p : Nat) (x : PStream) : (s.setPs p x).pll = s.pll := rfl
@[simp] theorem setPs_seq (p : Nat) (x : PStream) : (s.setPs p x).seq = s.seq := rfl
@[simp] theorem setPs_boot (p : Nat) (x : PStream) : (s.setPs p x).boot = s.boot := rfl
@[simp] theorem setPs_flash (p : Nat) (x : PStream) : (s.setPs p x).flash = s.flash := rfl
@[simp] theorem setPs_flops (p : Nat) (x : PStream) : (s.setPs p x).flops = s.flops := rfl
@[simp] theorem setPs_dram (p : Nat) (x : PStream) : (s.setPs p x).dram = s.dram := rfl
@[simp] theorem setPs_dch (p : Nat) (x : PStream) : (s.setPs p x).dch = s.dch := rfl
@[simp] theorem setPs_dctl (p : Nat) (x : PStream) : (s.setPs p x).dctl = s.dctl := rfl
@[simp] theorem setPs_qf (p : Nat) (x : PStream) : (s.setPs p x).qf = s.qf := rfl
@[simp] theorem setPs_pools (p : Nat) (x : PStream) : (s.setPs p x).pools = s.pools := rfl
@[simp] theorem setPs_lnd (p : Nat) (x : PStream) : (s.setPs p x).lnd = s.lnd := rfl
@[simp] theorem setPs_hdrs (p : Nat) (x : PStream) : (s.setPs p x).hdrs = s.hdrs := rfl
@[simp] theorem setPs_xcv (p : Nat) (x : PStream) : (s.setPs p x).xcv = s.xcv := rfl
@[simp] theorem setPs_fct (p : Nat) (x : PStream) : (s.setPs p x).fct = s.fct := rfl
@[simp] theorem setPs_cod (p : Nat) (x : PStream) : (s.setPs p x).cod = s.cod := rfl
@[simp] theorem setPs_sch (p : Nat) (x : PStream) : (s.setPs p x).sch = s.sch := rfl
@[simp] theorem setPs_ptp (p : Nat) (x : PStream) : (s.setPs p x).ptp = s.ptp := rfl
@[simp] theorem setPs_dma (p : Nat) (x : PStream) : (s.setPs p x).dma = s.dma := rfl
@[simp] theorem setPs_dmaArb (p : Nat) (x : PStream) : (s.setPs p x).dmaArb = s.dmaArb := rfl
@[simp] theorem setPs_hostOpen (p : Nat) (x : PStream) : (s.setPs p x).hostOpen = s.hostOpen := rfl
@[simp] theorem setPs_answers (p : Nat) (x : PStream) : (s.setPs p x).answers = s.answers := rfl
@[simp] theorem setPs_rd (p : Nat) (x : PStream) : (s.setPs p x).rd = s.rd := rfl
@[simp] theorem setPs_sent (p : Nat) (x : PStream) : (s.setPs p x).sent = s.sent := rfl
@[simp] theorem setPs_freeCtr (p : Nat) (x : PStream) : (s.setPs p x).freeCtr = s.freeCtr := rfl
@[simp] theorem setPs_pending (p : Nat) (x : PStream) : (s.setPs p x).pending = s.pending := rfl

/-! ### modPll -/

@[simp] theorem modPll_fuse (f : Plls → Plls) : (s.modPll f).fuse = s.fuse := rfl
@[simp] theorem modPll_regs (f : Plls → Plls) : (s.modPll f).regs = s.regs := rfl
@[simp] theorem modPll_force (f : Plls → Plls) : (s.modPll f).force = s.force := rfl
@[simp] theorem modPll_holdR (f : Plls → Plls) : (s.modPll f).holdR = s.holdR := rfl
@[simp] theorem modPll_holdW (f : Plls → Plls) : (s.modPll f).holdW = s.holdW := rfl
@[simp] theorem modPll_loads (f : Plls → Plls) : (s.modPll f).loads = s.loads := rfl
@[simp] theorem modPll_gpio (f : Plls → Plls) : (s.modPll f).gpio = s.gpio := rfl
@[simp] theorem modPll_clk (f : Plls → Plls) : (s.modPll f).clk = s.clk := rfl
@[simp] theorem modPll_dom (f : Plls → Plls) : (s.modPll f).dom = s.dom := rfl
@[simp] theorem modPll_evts (f : Plls → Plls) : (s.modPll f).evts = s.evts := rfl
@[simp] theorem modPll_thm (f : Plls → Plls) : (s.modPll f).thm = s.thm := rfl
@[simp] theorem modPll_flt (f : Plls → Plls) : (s.modPll f).flt = s.flt := rfl
@[simp] theorem modPll_ic (f : Plls → Plls) : (s.modPll f).ic = s.ic := rfl
@[simp] theorem modPll_win (f : Plls → Plls) : (s.modPll f).win = s.win := rfl
@[simp] theorem modPll_seq (f : Plls → Plls) : (s.modPll f).seq = s.seq := rfl
@[simp] theorem modPll_boot (f : Plls → Plls) : (s.modPll f).boot = s.boot := rfl
@[simp] theorem modPll_flash (f : Plls → Plls) : (s.modPll f).flash = s.flash := rfl
@[simp] theorem modPll_flops (f : Plls → Plls) : (s.modPll f).flops = s.flops := rfl
@[simp] theorem modPll_dram (f : Plls → Plls) : (s.modPll f).dram = s.dram := rfl
@[simp] theorem modPll_dch (f : Plls → Plls) : (s.modPll f).dch = s.dch := rfl
@[simp] theorem modPll_dctl (f : Plls → Plls) : (s.modPll f).dctl = s.dctl := rfl
@[simp] theorem modPll_qf (f : Plls → Plls) : (s.modPll f).qf = s.qf := rfl
@[simp] theorem modPll_pools (f : Plls → Plls) : (s.modPll f).pools = s.pools := rfl
@[simp] theorem modPll_lnd (f : Plls → Plls) : (s.modPll f).lnd = s.lnd := rfl
@[simp] theorem modPll_hdrs (f : Plls → Plls) : (s.modPll f).hdrs = s.hdrs := rfl
@[simp] theorem modPll_xcv (f : Plls → Plls) : (s.modPll f).xcv = s.xcv := rfl
@[simp] theorem modPll_fct (f : Plls → Plls) : (s.modPll f).fct = s.fct := rfl
@[simp] theorem modPll_cod (f : Plls → Plls) : (s.modPll f).cod = s.cod := rfl
@[simp] theorem modPll_play (f : Plls → Plls) : (s.modPll f).play = s.play := rfl
@[simp] theorem modPll_sch (f : Plls → Plls) : (s.modPll f).sch = s.sch := rfl
@[simp] theorem modPll_ptp (f : Plls → Plls) : (s.modPll f).ptp = s.ptp := rfl
@[simp] theorem modPll_dma (f : Plls → Plls) : (s.modPll f).dma = s.dma := rfl
@[simp] theorem modPll_dmaArb (f : Plls → Plls) : (s.modPll f).dmaArb = s.dmaArb := rfl
@[simp] theorem modPll_hostOpen (f : Plls → Plls) : (s.modPll f).hostOpen = s.hostOpen := rfl
@[simp] theorem modPll_answers (f : Plls → Plls) : (s.modPll f).answers = s.answers := rfl
@[simp] theorem modPll_rd (f : Plls → Plls) : (s.modPll f).rd = s.rd := rfl
@[simp] theorem modPll_sent (f : Plls → Plls) : (s.modPll f).sent = s.sent := rfl
@[simp] theorem modPll_freeCtr (f : Plls → Plls) : (s.modPll f).freeCtr = s.freeCtr := rfl
@[simp] theorem modPll_pending (f : Plls → Plls) : (s.modPll f).pending = s.pending := rfl

/-! ### modThm -/

@[simp] theorem modThm_fuse (f : Thm → Thm) : (s.modThm f).fuse = s.fuse := rfl
@[simp] theorem modThm_regs (f : Thm → Thm) : (s.modThm f).regs = s.regs := rfl
@[simp] theorem modThm_force (f : Thm → Thm) : (s.modThm f).force = s.force := rfl
@[simp] theorem modThm_holdR (f : Thm → Thm) : (s.modThm f).holdR = s.holdR := rfl
@[simp] theorem modThm_holdW (f : Thm → Thm) : (s.modThm f).holdW = s.holdW := rfl
@[simp] theorem modThm_loads (f : Thm → Thm) : (s.modThm f).loads = s.loads := rfl
@[simp] theorem modThm_gpio (f : Thm → Thm) : (s.modThm f).gpio = s.gpio := rfl
@[simp] theorem modThm_clk (f : Thm → Thm) : (s.modThm f).clk = s.clk := rfl
@[simp] theorem modThm_dom (f : Thm → Thm) : (s.modThm f).dom = s.dom := rfl
@[simp] theorem modThm_evts (f : Thm → Thm) : (s.modThm f).evts = s.evts := rfl
@[simp] theorem modThm_flt (f : Thm → Thm) : (s.modThm f).flt = s.flt := rfl
@[simp] theorem modThm_ic (f : Thm → Thm) : (s.modThm f).ic = s.ic := rfl
@[simp] theorem modThm_win (f : Thm → Thm) : (s.modThm f).win = s.win := rfl
@[simp] theorem modThm_pll (f : Thm → Thm) : (s.modThm f).pll = s.pll := rfl
@[simp] theorem modThm_seq (f : Thm → Thm) : (s.modThm f).seq = s.seq := rfl
@[simp] theorem modThm_boot (f : Thm → Thm) : (s.modThm f).boot = s.boot := rfl
@[simp] theorem modThm_flash (f : Thm → Thm) : (s.modThm f).flash = s.flash := rfl
@[simp] theorem modThm_flops (f : Thm → Thm) : (s.modThm f).flops = s.flops := rfl
@[simp] theorem modThm_dram (f : Thm → Thm) : (s.modThm f).dram = s.dram := rfl
@[simp] theorem modThm_dch (f : Thm → Thm) : (s.modThm f).dch = s.dch := rfl
@[simp] theorem modThm_dctl (f : Thm → Thm) : (s.modThm f).dctl = s.dctl := rfl
@[simp] theorem modThm_qf (f : Thm → Thm) : (s.modThm f).qf = s.qf := rfl
@[simp] theorem modThm_pools (f : Thm → Thm) : (s.modThm f).pools = s.pools := rfl
@[simp] theorem modThm_lnd (f : Thm → Thm) : (s.modThm f).lnd = s.lnd := rfl
@[simp] theorem modThm_hdrs (f : Thm → Thm) : (s.modThm f).hdrs = s.hdrs := rfl
@[simp] theorem modThm_xcv (f : Thm → Thm) : (s.modThm f).xcv = s.xcv := rfl
@[simp] theorem modThm_fct (f : Thm → Thm) : (s.modThm f).fct = s.fct := rfl
@[simp] theorem modThm_cod (f : Thm → Thm) : (s.modThm f).cod = s.cod := rfl
@[simp] theorem modThm_play (f : Thm → Thm) : (s.modThm f).play = s.play := rfl
@[simp] theorem modThm_sch (f : Thm → Thm) : (s.modThm f).sch = s.sch := rfl
@[simp] theorem modThm_ptp (f : Thm → Thm) : (s.modThm f).ptp = s.ptp := rfl
@[simp] theorem modThm_dma (f : Thm → Thm) : (s.modThm f).dma = s.dma := rfl
@[simp] theorem modThm_dmaArb (f : Thm → Thm) : (s.modThm f).dmaArb = s.dmaArb := rfl
@[simp] theorem modThm_hostOpen (f : Thm → Thm) : (s.modThm f).hostOpen = s.hostOpen := rfl
@[simp] theorem modThm_answers (f : Thm → Thm) : (s.modThm f).answers = s.answers := rfl
@[simp] theorem modThm_rd (f : Thm → Thm) : (s.modThm f).rd = s.rd := rfl
@[simp] theorem modThm_sent (f : Thm → Thm) : (s.modThm f).sent = s.sent := rfl
@[simp] theorem modThm_freeCtr (f : Thm → Thm) : (s.modThm f).freeCtr = s.freeCtr := rfl
@[simp] theorem modThm_pending (f : Thm → Thm) : (s.modThm f).pending = s.pending := rfl

/-! ### modPtp -/

@[simp] theorem modPtp_fuse (f : Ptp → Ptp) : (s.modPtp f).fuse = s.fuse := rfl
@[simp] theorem modPtp_regs (f : Ptp → Ptp) : (s.modPtp f).regs = s.regs := rfl
@[simp] theorem modPtp_force (f : Ptp → Ptp) : (s.modPtp f).force = s.force := rfl
@[simp] theorem modPtp_holdR (f : Ptp → Ptp) : (s.modPtp f).holdR = s.holdR := rfl
@[simp] theorem modPtp_holdW (f : Ptp → Ptp) : (s.modPtp f).holdW = s.holdW := rfl
@[simp] theorem modPtp_loads (f : Ptp → Ptp) : (s.modPtp f).loads = s.loads := rfl
@[simp] theorem modPtp_gpio (f : Ptp → Ptp) : (s.modPtp f).gpio = s.gpio := rfl
@[simp] theorem modPtp_clk (f : Ptp → Ptp) : (s.modPtp f).clk = s.clk := rfl
@[simp] theorem modPtp_dom (f : Ptp → Ptp) : (s.modPtp f).dom = s.dom := rfl
@[simp] theorem modPtp_evts (f : Ptp → Ptp) : (s.modPtp f).evts = s.evts := rfl
@[simp] theorem modPtp_thm (f : Ptp → Ptp) : (s.modPtp f).thm = s.thm := rfl
@[simp] theorem modPtp_flt (f : Ptp → Ptp) : (s.modPtp f).flt = s.flt := rfl
@[simp] theorem modPtp_ic (f : Ptp → Ptp) : (s.modPtp f).ic = s.ic := rfl
@[simp] theorem modPtp_win (f : Ptp → Ptp) : (s.modPtp f).win = s.win := rfl
@[simp] theorem modPtp_pll (f : Ptp → Ptp) : (s.modPtp f).pll = s.pll := rfl
@[simp] theorem modPtp_seq (f : Ptp → Ptp) : (s.modPtp f).seq = s.seq := rfl
@[simp] theorem modPtp_boot (f : Ptp → Ptp) : (s.modPtp f).boot = s.boot := rfl
@[simp] theorem modPtp_flash (f : Ptp → Ptp) : (s.modPtp f).flash = s.flash := rfl
@[simp] theorem modPtp_flops (f : Ptp → Ptp) : (s.modPtp f).flops = s.flops := rfl
@[simp] theorem modPtp_dram (f : Ptp → Ptp) : (s.modPtp f).dram = s.dram := rfl
@[simp] theorem modPtp_dch (f : Ptp → Ptp) : (s.modPtp f).dch = s.dch := rfl
@[simp] theorem modPtp_dctl (f : Ptp → Ptp) : (s.modPtp f).dctl = s.dctl := rfl
@[simp] theorem modPtp_qf (f : Ptp → Ptp) : (s.modPtp f).qf = s.qf := rfl
@[simp] theorem modPtp_pools (f : Ptp → Ptp) : (s.modPtp f).pools = s.pools := rfl
@[simp] theorem modPtp_lnd (f : Ptp → Ptp) : (s.modPtp f).lnd = s.lnd := rfl
@[simp] theorem modPtp_hdrs (f : Ptp → Ptp) : (s.modPtp f).hdrs = s.hdrs := rfl
@[simp] theorem modPtp_xcv (f : Ptp → Ptp) : (s.modPtp f).xcv = s.xcv := rfl
@[simp] theorem modPtp_fct (f : Ptp → Ptp) : (s.modPtp f).fct = s.fct := rfl
@[simp] theorem modPtp_cod (f : Ptp → Ptp) : (s.modPtp f).cod = s.cod := rfl
@[simp] theorem modPtp_play (f : Ptp → Ptp) : (s.modPtp f).play = s.play := rfl
@[simp] theorem modPtp_sch (f : Ptp → Ptp) : (s.modPtp f).sch = s.sch := rfl
@[simp] theorem modPtp_dma (f : Ptp → Ptp) : (s.modPtp f).dma = s.dma := rfl
@[simp] theorem modPtp_dmaArb (f : Ptp → Ptp) : (s.modPtp f).dmaArb = s.dmaArb := rfl
@[simp] theorem modPtp_hostOpen (f : Ptp → Ptp) : (s.modPtp f).hostOpen = s.hostOpen := rfl
@[simp] theorem modPtp_answers (f : Ptp → Ptp) : (s.modPtp f).answers = s.answers := rfl
@[simp] theorem modPtp_rd (f : Ptp → Ptp) : (s.modPtp f).rd = s.rd := rfl
@[simp] theorem modPtp_sent (f : Ptp → Ptp) : (s.modPtp f).sent = s.sent := rfl
@[simp] theorem modPtp_freeCtr (f : Ptp → Ptp) : (s.modPtp f).freeCtr = s.freeCtr := rfl
@[simp] theorem modPtp_pending (f : Ptp → Ptp) : (s.modPtp f).pending = s.pending := rfl

/-! ### setSl -/

@[simp] theorem setSl_fuse (l : Nat) (x : SList) : (s.setSl l x).fuse = s.fuse := rfl
@[simp] theorem setSl_regs (l : Nat) (x : SList) : (s.setSl l x).regs = s.regs := rfl
@[simp] theorem setSl_force (l : Nat) (x : SList) : (s.setSl l x).force = s.force := rfl
@[simp] theorem setSl_holdR (l : Nat) (x : SList) : (s.setSl l x).holdR = s.holdR := rfl
@[simp] theorem setSl_holdW (l : Nat) (x : SList) : (s.setSl l x).holdW = s.holdW := rfl
@[simp] theorem setSl_loads (l : Nat) (x : SList) : (s.setSl l x).loads = s.loads := rfl
@[simp] theorem setSl_gpio (l : Nat) (x : SList) : (s.setSl l x).gpio = s.gpio := rfl
@[simp] theorem setSl_clk (l : Nat) (x : SList) : (s.setSl l x).clk = s.clk := rfl
@[simp] theorem setSl_dom (l : Nat) (x : SList) : (s.setSl l x).dom = s.dom := rfl
@[simp] theorem setSl_evts (l : Nat) (x : SList) : (s.setSl l x).evts = s.evts := rfl
@[simp] theorem setSl_thm (l : Nat) (x : SList) : (s.setSl l x).thm = s.thm := rfl
@[simp] theorem setSl_flt (l : Nat) (x : SList) : (s.setSl l x).flt = s.flt := rfl
@[simp] theorem setSl_ic (l : Nat) (x : SList) : (s.setSl l x).ic = s.ic := rfl
@[simp] theorem setSl_win (l : Nat) (x : SList) : (s.setSl l x).win = s.win := rfl
@[simp] theorem setSl_pll (l : Nat) (x : SList) : (s.setSl l x).pll = s.pll := rfl
@[simp] theorem setSl_boot (l : Nat) (x : SList) : (s.setSl l x).boot = s.boot := rfl
@[simp] theorem setSl_flash (l : Nat) (x : SList) : (s.setSl l x).flash = s.flash := rfl
@[simp] theorem setSl_flops (l : Nat) (x : SList) : (s.setSl l x).flops = s.flops := rfl
@[simp] theorem setSl_dram (l : Nat) (x : SList) : (s.setSl l x).dram = s.dram := rfl
@[simp] theorem setSl_dch (l : Nat) (x : SList) : (s.setSl l x).dch = s.dch := rfl
@[simp] theorem setSl_dctl (l : Nat) (x : SList) : (s.setSl l x).dctl = s.dctl := rfl
@[simp] theorem setSl_qf (l : Nat) (x : SList) : (s.setSl l x).qf = s.qf := rfl
@[simp] theorem setSl_pools (l : Nat) (x : SList) : (s.setSl l x).pools = s.pools := rfl
@[simp] theorem setSl_lnd (l : Nat) (x : SList) : (s.setSl l x).lnd = s.lnd := rfl
@[simp] theorem setSl_hdrs (l : Nat) (x : SList) : (s.setSl l x).hdrs = s.hdrs := rfl
@[simp] theorem setSl_xcv (l : Nat) (x : SList) : (s.setSl l x).xcv = s.xcv := rfl
@[simp] theorem setSl_fct (l : Nat) (x : SList) : (s.setSl l x).fct = s.fct := rfl
@[simp] theorem setSl_cod (l : Nat) (x : SList) : (s.setSl l x).cod = s.cod := rfl
@[simp] theorem setSl_play (l : Nat) (x : SList) : (s.setSl l x).play = s.play := rfl
@[simp] theorem setSl_sch (l : Nat) (x : SList) : (s.setSl l x).sch = s.sch := rfl
@[simp] theorem setSl_ptp (l : Nat) (x : SList) : (s.setSl l x).ptp = s.ptp := rfl
@[simp] theorem setSl_dma (l : Nat) (x : SList) : (s.setSl l x).dma = s.dma := rfl
@[simp] theorem setSl_dmaArb (l : Nat) (x : SList) : (s.setSl l x).dmaArb = s.dmaArb := rfl
@[simp] theorem setSl_hostOpen (l : Nat) (x : SList) : (s.setSl l x).hostOpen = s.hostOpen := rfl
@[simp] theorem setSl_answers (l : Nat) (x : SList) : (s.setSl l x).answers = s.answers := rfl
@[simp] theorem setSl_rd (l : Nat) (x : SList) : (s.setSl l x).rd = s.rd := rfl
@[simp] theorem setSl_sent (l : Nat) (x : SList) : (s.setSl l x).sent = s.sent := rfl
@[simp] theorem setSl_freeCtr (l : Nat) (x : SList) : (s.setSl l x).freeCtr = s.freeCtr := rfl
@[simp] theorem setSl_pending (l : Nat) (x : SList) : (s.setSl l x).pending = s.pending := rfl

/-! ### modSeq -/

@[simp] theorem modSeq_fuse (f : Sequencer → Sequencer) : (s.modSeq f).fuse = s.fuse := rfl
@[simp] theorem modSeq_regs (f : Sequencer → Sequencer) : (s.modSeq f).regs = s.regs := rfl
@[simp] theorem modSeq_force (f : Sequencer → Sequencer) : (s.modSeq f).force = s.force := rfl
@[simp] theorem modSeq_holdR (f : Sequencer → Sequencer) : (s.modSeq f).holdR = s.holdR := rfl
@[simp] theorem modSeq_holdW (f : Sequencer → Sequencer) : (s.modSeq f).holdW = s.holdW := rfl
@[simp] theorem modSeq_loads (f : Sequencer → Sequencer) : (s.modSeq f).loads = s.loads := rfl
@[simp] theorem modSeq_gpio (f : Sequencer → Sequencer) : (s.modSeq f).gpio = s.gpio := rfl
@[simp] theorem modSeq_clk (f : Sequencer → Sequencer) : (s.modSeq f).clk = s.clk := rfl
@[simp] theorem modSeq_dom (f : Sequencer → Sequencer) : (s.modSeq f).dom = s.dom := rfl
@[simp] theorem modSeq_evts (f : Sequencer → Sequencer) : (s.modSeq f).evts = s.evts := rfl
@[simp] theorem modSeq_thm (f : Sequencer → Sequencer) : (s.modSeq f).thm = s.thm := rfl
@[simp] theorem modSeq_flt (f : Sequencer → Sequencer) : (s.modSeq f).flt = s.flt := rfl
@[simp] theorem modSeq_ic (f : Sequencer → Sequencer) : (s.modSeq f).ic = s.ic := rfl
@[simp] theorem modSeq_win (f : Sequencer → Sequencer) : (s.modSeq f).win = s.win := rfl
@[simp] theorem modSeq_pll (f : Sequencer → Sequencer) : (s.modSeq f).pll = s.pll := rfl
@[simp] theorem modSeq_boot (f : Sequencer → Sequencer) : (s.modSeq f).boot = s.boot := rfl
@[simp] theorem modSeq_flash (f : Sequencer → Sequencer) : (s.modSeq f).flash = s.flash := rfl
@[simp] theorem modSeq_flops (f : Sequencer → Sequencer) : (s.modSeq f).flops = s.flops := rfl
@[simp] theorem modSeq_dram (f : Sequencer → Sequencer) : (s.modSeq f).dram = s.dram := rfl
@[simp] theorem modSeq_dch (f : Sequencer → Sequencer) : (s.modSeq f).dch = s.dch := rfl
@[simp] theorem modSeq_dctl (f : Sequencer → Sequencer) : (s.modSeq f).dctl = s.dctl := rfl
@[simp] theorem modSeq_qf (f : Sequencer → Sequencer) : (s.modSeq f).qf = s.qf := rfl
@[simp] theorem modSeq_pools (f : Sequencer → Sequencer) : (s.modSeq f).pools = s.pools := rfl
@[simp] theorem modSeq_lnd (f : Sequencer → Sequencer) : (s.modSeq f).lnd = s.lnd := rfl
@[simp] theorem modSeq_hdrs (f : Sequencer → Sequencer) : (s.modSeq f).hdrs = s.hdrs := rfl
@[simp] theorem modSeq_xcv (f : Sequencer → Sequencer) : (s.modSeq f).xcv = s.xcv := rfl
@[simp] theorem modSeq_fct (f : Sequencer → Sequencer) : (s.modSeq f).fct = s.fct := rfl
@[simp] theorem modSeq_cod (f : Sequencer → Sequencer) : (s.modSeq f).cod = s.cod := rfl
@[simp] theorem modSeq_play (f : Sequencer → Sequencer) : (s.modSeq f).play = s.play := rfl
@[simp] theorem modSeq_sch (f : Sequencer → Sequencer) : (s.modSeq f).sch = s.sch := rfl
@[simp] theorem modSeq_ptp (f : Sequencer → Sequencer) : (s.modSeq f).ptp = s.ptp := rfl
@[simp] theorem modSeq_dma (f : Sequencer → Sequencer) : (s.modSeq f).dma = s.dma := rfl
@[simp] theorem modSeq_dmaArb (f : Sequencer → Sequencer) : (s.modSeq f).dmaArb = s.dmaArb := rfl
@[simp] theorem modSeq_hostOpen (f : Sequencer → Sequencer) : (s.modSeq f).hostOpen = s.hostOpen := rfl
@[simp] theorem modSeq_answers (f : Sequencer → Sequencer) : (s.modSeq f).answers = s.answers := rfl
@[simp] theorem modSeq_rd (f : Sequencer → Sequencer) : (s.modSeq f).rd = s.rd := rfl
@[simp] theorem modSeq_sent (f : Sequencer → Sequencer) : (s.modSeq f).sent = s.sent := rfl
@[simp] theorem modSeq_freeCtr (f : Sequencer → Sequencer) : (s.modSeq f).freeCtr = s.freeCtr := rfl
@[simp] theorem modSeq_pending (f : Sequencer → Sequencer) : (s.modSeq f).pending = s.pending := rfl

/-! ### modBoot -/

@[simp] theorem modBoot_fuse (f : Boot → Boot) : (s.modBoot f).fuse = s.fuse := rfl
@[simp] theorem modBoot_regs (f : Boot → Boot) : (s.modBoot f).regs = s.regs := rfl
@[simp] theorem modBoot_force (f : Boot → Boot) : (s.modBoot f).force = s.force := rfl
@[simp] theorem modBoot_holdR (f : Boot → Boot) : (s.modBoot f).holdR = s.holdR := rfl
@[simp] theorem modBoot_holdW (f : Boot → Boot) : (s.modBoot f).holdW = s.holdW := rfl
@[simp] theorem modBoot_loads (f : Boot → Boot) : (s.modBoot f).loads = s.loads := rfl
@[simp] theorem modBoot_gpio (f : Boot → Boot) : (s.modBoot f).gpio = s.gpio := rfl
@[simp] theorem modBoot_clk (f : Boot → Boot) : (s.modBoot f).clk = s.clk := rfl
@[simp] theorem modBoot_dom (f : Boot → Boot) : (s.modBoot f).dom = s.dom := rfl
@[simp] theorem modBoot_evts (f : Boot → Boot) : (s.modBoot f).evts = s.evts := rfl
@[simp] theorem modBoot_thm (f : Boot → Boot) : (s.modBoot f).thm = s.thm := rfl
@[simp] theorem modBoot_flt (f : Boot → Boot) : (s.modBoot f).flt = s.flt := rfl
@[simp] theorem modBoot_ic (f : Boot → Boot) : (s.modBoot f).ic = s.ic := rfl
@[simp] theorem modBoot_win (f : Boot → Boot) : (s.modBoot f).win = s.win := rfl
@[simp] theorem modBoot_pll (f : Boot → Boot) : (s.modBoot f).pll = s.pll := rfl
@[simp] theorem modBoot_seq (f : Boot → Boot) : (s.modBoot f).seq = s.seq := rfl
@[simp] theorem modBoot_flash (f : Boot → Boot) : (s.modBoot f).flash = s.flash := rfl
@[simp] theorem modBoot_flops (f : Boot → Boot) : (s.modBoot f).flops = s.flops := rfl
@[simp] theorem modBoot_dram (f : Boot → Boot) : (s.modBoot f).dram = s.dram := rfl
@[simp] theorem modBoot_dch (f : Boot → Boot) : (s.modBoot f).dch = s.dch := rfl
@[simp] theorem modBoot_dctl (f : Boot → Boot) : (s.modBoot f).dctl = s.dctl := rfl
@[simp] theorem modBoot_qf (f : Boot → Boot) : (s.modBoot f).qf = s.qf := rfl
@[simp] theorem modBoot_pools (f : Boot → Boot) : (s.modBoot f).pools = s.pools := rfl
@[simp] theorem modBoot_lnd (f : Boot → Boot) : (s.modBoot f).lnd = s.lnd := rfl
@[simp] theorem modBoot_hdrs (f : Boot → Boot) : (s.modBoot f).hdrs = s.hdrs := rfl
@[simp] theorem modBoot_xcv (f : Boot → Boot) : (s.modBoot f).xcv = s.xcv := rfl
@[simp] theorem modBoot_fct (f : Boot → Boot) : (s.modBoot f).fct = s.fct := rfl
@[simp] theorem modBoot_cod (f : Boot → Boot) : (s.modBoot f).cod = s.cod := rfl
@[simp] theorem modBoot_play (f : Boot → Boot) : (s.modBoot f).play = s.play := rfl
@[simp] theorem modBoot_sch (f : Boot → Boot) : (s.modBoot f).sch = s.sch := rfl
@[simp] theorem modBoot_ptp (f : Boot → Boot) : (s.modBoot f).ptp = s.ptp := rfl
@[simp] theorem modBoot_dma (f : Boot → Boot) : (s.modBoot f).dma = s.dma := rfl
@[simp] theorem modBoot_dmaArb (f : Boot → Boot) : (s.modBoot f).dmaArb = s.dmaArb := rfl
@[simp] theorem modBoot_hostOpen (f : Boot → Boot) : (s.modBoot f).hostOpen = s.hostOpen := rfl
@[simp] theorem modBoot_answers (f : Boot → Boot) : (s.modBoot f).answers = s.answers := rfl
@[simp] theorem modBoot_rd (f : Boot → Boot) : (s.modBoot f).rd = s.rd := rfl
@[simp] theorem modBoot_sent (f : Boot → Boot) : (s.modBoot f).sent = s.sent := rfl
@[simp] theorem modBoot_freeCtr (f : Boot → Boot) : (s.modBoot f).freeCtr = s.freeCtr := rfl
@[simp] theorem modBoot_pending (f : Boot → Boot) : (s.modBoot f).pending = s.pending := rfl

/-! ### emit -/

@[simp] theorem emit_fuse (m : Msg) : (s.emit m).fuse = s.fuse := rfl
@[simp] theorem emit_regs (m : Msg) : (s.emit m).regs = s.regs := rfl
@[simp] theorem emit_force (m : Msg) : (s.emit m).force = s.force := rfl
@[simp] theorem emit_holdR (m : Msg) : (s.emit m).holdR = s.holdR := rfl
@[simp] theorem emit_holdW (m : Msg) : (s.emit m).holdW = s.holdW := rfl
@[simp] theorem emit_loads (m : Msg) : (s.emit m).loads = s.loads := rfl
@[simp] theorem emit_gpio (m : Msg) : (s.emit m).gpio = s.gpio := rfl
@[simp] theorem emit_clk (m : Msg) : (s.emit m).clk = s.clk := rfl
@[simp] theorem emit_dom (m : Msg) : (s.emit m).dom = s.dom := rfl
@[simp] theorem emit_evts (m : Msg) : (s.emit m).evts = s.evts := rfl
@[simp] theorem emit_thm (m : Msg) : (s.emit m).thm = s.thm := rfl
@[simp] theorem emit_flt (m : Msg) : (s.emit m).flt = s.flt := rfl
@[simp] theorem emit_ic (m : Msg) : (s.emit m).ic = s.ic := rfl
@[simp] theorem emit_win (m : Msg) : (s.emit m).win = s.win := rfl
@[simp] theorem emit_pll (m : Msg) : (s.emit m).pll = s.pll := rfl
@[simp] theorem emit_seq (m : Msg) : (s.emit m).seq = s.seq := rfl
@[simp] theorem emit_boot (m : Msg) : (s.emit m).boot = s.boot := rfl
@[simp] theorem emit_flash (m : Msg) : (s.emit m).flash = s.flash := rfl
@[simp] theorem emit_flops (m : Msg) : (s.emit m).flops = s.flops := rfl
@[simp] theorem emit_dram (m : Msg) : (s.emit m).dram = s.dram := rfl
@[simp] theorem emit_dch (m : Msg) : (s.emit m).dch = s.dch := rfl
@[simp] theorem emit_dctl (m : Msg) : (s.emit m).dctl = s.dctl := rfl
@[simp] theorem emit_qf (m : Msg) : (s.emit m).qf = s.qf := rfl
@[simp] theorem emit_pools (m : Msg) : (s.emit m).pools = s.pools := rfl
@[simp] theorem emit_lnd (m : Msg) : (s.emit m).lnd = s.lnd := rfl
@[simp] theorem emit_hdrs (m : Msg) : (s.emit m).hdrs = s.hdrs := rfl
@[simp] theorem emit_xcv (m : Msg) : (s.emit m).xcv = s.xcv := rfl
@[simp] theorem emit_fct (m : Msg) : (s.emit m).fct = s.fct := rfl
@[simp] theorem emit_cod (m : Msg) : (s.emit m).cod = s.cod := rfl
@[simp] theorem emit_play (m : Msg) : (s.emit m).play = s.play := rfl
@[simp] theorem emit_sch (m : Msg) : (s.emit m).sch = s.sch := rfl
@[simp] theorem emit_ptp (m : Msg) : (s.emit m).ptp = s.ptp := rfl
@[simp] theorem emit_dma (m : Msg) : (s.emit m).dma = s.dma := rfl
@[simp] theorem emit_dmaArb (m : Msg) : (s.emit m).dmaArb = s.dmaArb := rfl
@[simp] theorem emit_hostOpen (m : Msg) : (s.emit m).hostOpen = s.hostOpen := rfl
@[simp] theorem emit_answers (m : Msg) : (s.emit m).answers = s.answers := rfl
@[simp] theorem emit_rd (m : Msg) : (s.emit m).rd = s.rd := rfl
@[simp] theorem emit_freeCtr (m : Msg) : (s.emit m).freeCtr = s.freeCtr := rfl
@[simp] theorem emit_pending (m : Msg) : (s.emit m).pending = s.pending := rfl

/-! ### answer -/

@[simp] theorem answer_fuse (i : Iface) (l : List Word) : (s.answer i l).fuse = s.fuse := rfl
@[simp] theorem answer_regs (i : Iface) (l : List Word) : (s.answer i l).regs = s.regs := rfl
@[simp] theorem answer_force (i : Iface) (l : List Word) : (s.answer i l).force = s.force := rfl
@[simp] theorem answer_holdR (i : Iface) (l : List Word) : (s.answer i l).holdR = s.holdR := rfl
@[simp] theorem answer_holdW (i : Iface) (l : List Word) : (s.answer i l).holdW = s.holdW := rfl
@[simp] theorem answer_loads (i : Iface) (l : List Word) : (s.answer i l).loads = s.loads := rfl
@[simp] theorem answer_gpio (i : Iface) (l : List Word) : (s.answer i l).gpio = s.gpio := rfl
@[simp] theorem answer_clk (i : Iface) (l : List Word) : (s.answer i l).clk = s.clk := rfl
@[simp] theorem answer_dom (i : Iface) (l : List Word) : (s.answer i l).dom = s.dom := rfl
@[simp] theorem answer_evts (i : Iface) (l : List Word) : (s.answer i l).evts = s.evts := rfl
@[simp] theorem answer_thm (i : Iface) (l : List Word) : (s.answer i l).thm = s.thm := rfl
@[simp] theorem answer_flt (i : Iface) (l : List Word) : (s.answer i l).flt = s.flt := rfl
@[simp] theorem answer_ic (i : Iface) (l : List Word) : (s.answer i l).ic = s.ic := rfl
@[simp] theorem answer_win (i : Iface) (l : List Word) : (s.answer i l).win = s.win := rfl
@[simp] theorem answer_pll (i : Iface) (l : List Word) : (s.answer i l).pll = s.pll := rfl
@[simp] theorem answer_seq (i : Iface) (l : List Word) : (s.answer i l).seq = s.seq := rfl
@[simp] theorem answer_boot (i : Iface) (l : List Word) : (s.answer i l).boot = s.boot := rfl
@[simp] theorem answer_flash (i : Iface) (l : List Word) : (s.answer i l).flash = s.flash := rfl
@[simp] theorem answer_flops (i : Iface) (l : List Word) : (s.answer i l).flops = s.flops := rfl
@[simp] theorem answer_dram (i : Iface) (l : List Word) : (s.answer i l).dram = s.dram := rfl
@[simp] theorem answer_dch (i : Iface) (l : List Word) : (s.answer i l).dch = s.dch := rfl
@[simp] theorem answer_dctl (i : Iface) (l : List Word) : (s.answer i l).dctl = s.dctl := rfl
@[simp] theorem answer_qf (i : Iface) (l : List Word) : (s.answer i l).qf = s.qf := rfl
@[simp] theorem answer_pools (i : Iface) (l : List Word) : (s.answer i l).pools = s.pools := rfl
@[simp] theorem answer_lnd (i : Iface) (l : List Word) : (s.answer i l).lnd = s.lnd := rfl
@[simp] theorem answer_hdrs (i : Iface) (l : List Word) : (s.answer i l).hdrs = s.hdrs := rfl
@[simp] theorem answer_xcv (i : Iface) (l : List Word) : (s.answer i l).xcv = s.xcv := rfl
@[simp] theorem answer_fct (i : Iface) (l : List Word) : (s.answer i l).fct = s.fct := rfl
@[simp] theorem answer_cod (i : Iface) (l : List Word) : (s.answer i l).cod = s.cod := rfl
@[simp] theorem answer_play (i : Iface) (l : List Word) : (s.answer i l).play = s.play := rfl
@[simp] theorem answer_sch (i : Iface) (l : List Word) : (s.answer i l).sch = s.sch := rfl
@[simp] theorem answer_ptp (i : Iface) (l : List Word) : (s.answer i l).ptp = s.ptp := rfl
@[simp] theorem answer_dma (i : Iface) (l : List Word) : (s.answer i l).dma = s.dma := rfl
@[simp] theorem answer_dmaArb (i : Iface) (l : List Word) : (s.answer i l).dmaArb = s.dmaArb := rfl
@[simp] theorem answer_hostOpen (i : Iface) (l : List Word) : (s.answer i l).hostOpen = s.hostOpen := rfl
@[simp] theorem answer_answers (i : Iface) (l : List Word) : (s.answer i l).answers = s.answers := rfl
@[simp] theorem answer_sent (i : Iface) (l : List Word) : (s.answer i l).sent = s.sent := rfl
@[simp] theorem answer_freeCtr (i : Iface) (l : List Word) : (s.answer i l).freeCtr = s.freeCtr := rfl
@[simp] theorem answer_pending (i : Iface) (l : List Word) : (s.answer i l).pending = s.pending := rfl

/-! ### fabAns -/

@[simp] theorem fabAns_fuse (c v : Nat) : (s.fabAns c v).fuse = s.fuse := rfl
@[simp] theorem fabAns_regs (c v : Nat) : (s.fabAns c v).regs = s.regs := rfl
@[simp] theorem fabAns_force (c v : Nat) : (s.fabAns c v).force = s.force := rfl
@[simp] theorem fabAns_holdR (c v : Nat) : (s.fabAns c v).holdR = s.holdR := rfl
@[simp] theorem fabAns_holdW (c v : Nat) : (s.fabAns c v).holdW = s.holdW := rfl
@[simp] theorem fabAns_loads (c v : Nat) : (s.fabAns c v).loads = s.loads := rfl
@[simp] theorem fabAns_gpio (c v : Nat) : (s.fabAns c v).gpio = s.gpio := rfl
@[simp] theorem fabAns_clk (c v : Nat) : (s.fabAns c v).clk = s.clk := rfl
@[simp] theorem fabAns_dom (c v : Nat) : (s.fabAns c v).dom = s.dom := rfl
@[simp] theorem fabAns_evts (c v : Nat) : (s.fabAns c v).evts = s.evts := rfl
@[simp] theorem fabAns_thm (c v : Nat) : (s.fabAns c v).thm = s.thm := rfl
@[simp] theorem fabAns_flt (c v : Nat) : (s.fabAns c v).flt = s.flt := rfl
@[simp] theorem fabAns_ic (c v : Nat) : (s.fabAns c v).ic = s.ic := rfl
@[simp] theorem fabAns_win (c v : Nat) : (s.fabAns c v).win = s.win := rfl
@[simp] theorem fabAns_pll (c v : Nat) : (s.fabAns c v).pll = s.pll := rfl
@[simp] theorem fabAns_seq (c v : Nat) : (s.fabAns c v).seq = s.seq := rfl
@[simp] theorem fabAns_boot (c v : Nat) : (s.fabAns c v).boot = s.boot := rfl
@[simp] theorem fabAns_flash (c v : Nat) : (s.fabAns c v).flash = s.flash := rfl
@[simp] theorem fabAns_flops (c v : Nat) : (s.fabAns c v).flops = s.flops := rfl
@[simp] theorem fabAns_dram (c v : Nat) : (s.fabAns c v).dram = s.dram := rfl
@[simp] theorem fabAns_dch (c v : Nat) : (s.fabAns c v).dch = s.dch := rfl
@[simp] theorem fabAns_dctl (c v : Nat) : (s.fabAns c v).dctl = s.dctl := rfl
@[simp] theorem fabAns_qf (c v : Nat) : (s.fabAns c v).qf = s.qf := rfl
@[simp] theorem fabAns_pools (c v : Nat) : (s.fabAns c v).pools = s.pools := rfl
@[simp] theorem fabAns_lnd (c v : Nat) : (s.fabAns c v).lnd = s.lnd := rfl
@[simp] theorem fabAns_hdrs (c v : Nat) : (s.fabAns c v).hdrs = s.hdrs := rfl
@[simp] theorem fabAns_xcv (c v : Nat) : (s.fabAns c v).xcv = s.xcv := rfl
@[simp] theorem fabAns_fct (c v : Nat) : (s.fabAns c v).fct = s.fct := rfl
@[simp] theorem fabAns_cod (c v : Nat) : (s.fabAns c v).cod = s.cod := rfl
@[simp] theorem fabAns_play (c v : Nat) : (s.fabAns c v).play = s.play := rfl
@[simp] theorem fabAns_sch (c v : Nat) : (s.fabAns c v).sch = s.sch := rfl
@[simp] theorem fabAns_ptp (c v : Nat) : (s.fabAns c v).ptp = s.ptp := rfl
@[simp] theorem fabAns_dma (c v : Nat) : (s.fabAns c v).dma = s.dma := rfl
@[simp] theorem fabAns_dmaArb (c v : Nat) : (s.fabAns c v).dmaArb = s.dmaArb := rfl
@[simp] theorem fabAns_hostOpen (c v : Nat) : (s.fabAns c v).hostOpen = s.hostOpen := rfl
@[simp] theorem fabAns_answers (c v : Nat) : (s.fabAns c v).answers = s.answers := rfl
@[simp] theorem fabAns_sent (c v : Nat) : (s.fabAns c v).sent = s.sent := rfl
@[simp] theorem fabAns_freeCtr (c v : Nat) : (s.fabAns c v).freeCtr = s.freeCtr := rfl
@[simp] theorem fabAns_pending (c v : Nat) : (s.fabAns c v).pending = s.pending := rfl

/-! ### at_ -/

@[simp] theorem at__fuse (t : Nat) : (s.at_ t).fuse = s.fuse := rfl
@[simp] theorem at__regs (t : Nat) : (s.at_ t).regs = s.regs := rfl
@[simp] theorem at__force (t : Nat) : (s.at_ t).force = s.force := rfl
@[simp] theorem at__holdR (t : Nat) : (s.at_ t).holdR = s.holdR := rfl
@[simp] theorem at__holdW (t : Nat) : (s.at_ t).holdW = s.holdW := rfl
@[simp] theorem at__loads (t : Nat) : (s.at_ t).loads = s.loads := rfl
@[simp] theorem at__gpio (t : Nat) : (s.at_ t).gpio = s.gpio := rfl
@[simp] theorem at__dom (t : Nat) : (s.at_ t).dom = s.dom := rfl
@[simp] theorem at__evts (t : Nat) : (s.at_ t).evts = s.evts := rfl
@[simp] theorem at__thm (t : Nat) : (s.at_ t).thm = s.thm := rfl
@[simp] theorem at__flt (t : Nat) : (s.at_ t).flt = s.flt := rfl
@[simp] theorem at__ic (t : Nat) : (s.at_ t).ic = s.ic := rfl
@[simp] theorem at__win (t : Nat) : (s.at_ t).win = s.win := rfl
@[simp] theorem at__pll (t : Nat) : (s.at_ t).pll = s.pll := rfl
@[simp] theorem at__seq (t : Nat) : (s.at_ t).seq = s.seq := rfl
@[simp] theorem at__boot (t : Nat) : (s.at_ t).boot = s.boot := rfl
@[simp] theorem at__flash (t : Nat) : (s.at_ t).flash = s.flash := rfl
@[simp] theorem at__flops (t : Nat) : (s.at_ t).flops = s.flops := rfl
@[simp] theorem at__dram (t : Nat) : (s.at_ t).dram = s.dram := rfl
@[simp] theorem at__dch (t : Nat) : (s.at_ t).dch = s.dch := rfl
@[simp] theorem at__dctl (t : Nat) : (s.at_ t).dctl = s.dctl := rfl
@[simp] theorem at__qf (t : Nat) : (s.at_ t).qf = s.qf := rfl
@[simp] theorem at__pools (t : Nat) : (s.at_ t).pools = s.pools := rfl
@[simp] theorem at__lnd (t : Nat) : (s.at_ t).lnd = s.lnd := rfl
@[simp] theorem at__hdrs (t : Nat) : (s.at_ t).hdrs = s.hdrs := rfl
@[simp] theorem at__xcv (t : Nat) : (s.at_ t).xcv = s.xcv := rfl
@[simp] theorem at__fct (t : Nat) : (s.at_ t).fct = s.fct := rfl
@[simp] theorem at__cod (t : Nat) : (s.at_ t).cod = s.cod := rfl
@[simp] theorem at__play (t : Nat) : (s.at_ t).play = s.play := rfl
@[simp] theorem at__sch (t : Nat) : (s.at_ t).sch = s.sch := rfl
@[simp] theorem at__ptp (t : Nat) : (s.at_ t).ptp = s.ptp := rfl
@[simp] theorem at__dma (t : Nat) : (s.at_ t).dma = s.dma := rfl
@[simp] theorem at__dmaArb (t : Nat) : (s.at_ t).dmaArb = s.dmaArb := rfl
@[simp] theorem at__hostOpen (t : Nat) : (s.at_ t).hostOpen = s.hostOpen := rfl
@[simp] theorem at__answers (t : Nat) : (s.at_ t).answers = s.answers := rfl
@[simp] theorem at__rd (t : Nat) : (s.at_ t).rd = s.rd := rfl
@[simp] theorem at__sent (t : Nat) : (s.at_ t).sent = s.sent := rfl
@[simp] theorem at__freeCtr (t : Nat) : (s.at_ t).freeCtr = s.freeCtr := rfl
@[simp] theorem at__pending (t : Nat) : (s.at_ t).pending = s.pending := rfl

/-! ### Keyed entries -/

@[simp] theorem domain_setDomain_same (k : Nat) (x : Domain) : (s.setDomain k x).domain k = x := by simp [State.setDomain, State.domain]

theorem domain_setDomain_ne {k j : Nat} (x : Domain) (n : j ≠ k) : (s.setDomain k x).domain j = s.domain j := by
  simp [State.setDomain, State.domain, tget_tset_ne _ _ _ _ n]

@[simp] theorem pool_setPool_same (k : Nat) (x : Pool) : (s.setPool k x).pool k = x := by simp [State.setPool, State.pool]

theorem pool_setPool_ne {k j : Nat} (x : Pool) (n : j ≠ k) : (s.setPool k x).pool j = s.pool j := by
  simp [State.setPool, State.pool, tget_tset_ne _ _ _ _ n]

@[simp] theorem queue_setQueue_same (k : Nat) (x : Queue) : (s.setQueue k x).queue k = x := by simp [State.setQueue, State.queue]

theorem queue_setQueue_ne {k j : Nat} (x : Queue) (n : j ≠ k) : (s.setQueue k x).queue j = s.queue j := by
  simp [State.setQueue, State.queue, tget_tset_ne _ _ _ _ n]

@[simp] theorem cx_setCx_same (k : Nat) (x : Ctx) : (s.setCx k x).cx k = x := by simp [State.setCx, State.cx]

theorem cx_setCx_ne {k j : Nat} (x : Ctx) (n : j ≠ k) : (s.setCx k x).cx j = s.cx j := by
  simp [State.setCx, State.cx, tget_tset_ne _ _ _ _ n]

@[simp] theorem ce_setCe_same (k : Nat) (x : CEngine) : (s.setCe k x).ce k = x := by simp [State.setCe, State.ce]

theorem ce_setCe_ne {k j : Nat} (x : CEngine) (n : j ≠ k) : (s.setCe k x).ce j = s.ce j := by
  simp [State.setCe, State.ce, tget_tset_ne _ _ _ _ n]

@[simp] theorem dch__setDma_same (k : Nat) (x : DmaChan) : (s.setDma k x).dch_ k = x := by simp [State.setDma, State.dch_]

theorem dch__setDma_ne {k j : Nat} (x : DmaChan) (n : j ≠ k) : (s.setDma k x).dch_ j = s.dch_ j := by
  simp [State.setDma, State.dch_, tget_tset_ne _ _ _ _ n]

@[simp] theorem dc_setDc_same (k : Nat) (x : DChan) : (s.setDc k x).dc k = x := by simp [State.setDc, State.dc]

theorem dc_setDc_ne {k j : Nat} (x : DChan) (n : j ≠ k) : (s.setDc k x).dc j = s.dc j := by
  simp [State.setDc, State.dc, tget_tset_ne _ _ _ _ n]

@[simp] theorem dk_setDk_same (k : Nat) (x : DCtl) : (s.setDk k x).dk k = x := by simp [State.setDk, State.dk]

theorem dk_setDk_ne {k j : Nat} (x : DCtl) (n : j ≠ k) : (s.setDk k x).dk j = s.dk j := by
  simp [State.setDk, State.dk, tget_tset_ne _ _ _ _ n]

@[simp] theorem sp_setSp_same (k : Nat) (x : SPort) : (s.setSp k x).sp k = x := by simp [State.setSp, State.sp]

theorem sp_setSp_ne {k j : Nat} (x : SPort) (n : j ≠ k) : (s.setSp k x).sp j = s.sp j := by
  simp [State.setSp, State.sp, tget_tset_ne _ _ _ _ n]

@[simp] theorem sq_setSq_same (k : Nat) (x : SQueue) : (s.setSq k x).sq k = x := by simp [State.setSq, State.sq]

theorem sq_setSq_ne {k j : Nat} (x : SQueue) (n : j ≠ k) : (s.setSq k x).sq j = s.sq j := by
  simp [State.setSq, State.sq, tget_tset_ne _ _ _ _ n]

@[simp] theorem eng_setEng_same (k : Nat) (x : FEngine) : (s.setEng k x).eng k = x := by simp [State.setEng, State.eng]

theorem eng_setEng_ne {k j : Nat} (x : FEngine) (n : j ≠ k) : (s.setEng k x).eng j = s.eng j := by
  simp [State.setEng, State.eng, tget_tset_ne _ _ _ _ n]

@[simp] theorem fs_setFs_same (k : Nat) (x : FStream) : (s.setFs k x).fs k = x := by simp [State.setFs, State.fs]

theorem fs_setFs_ne {k j : Nat} (x : FStream) (n : j ≠ k) : (s.setFs k x).fs j = s.fs j := by
  simp [State.setFs, State.fs, tget_tset_ne _ _ _ _ n]

@[simp] theorem lg_setLg_same (k : Nat) (x : LGroup) : (s.setLg k x).lg k = x := by simp [State.setLg, State.lg]

theorem lg_setLg_ne {k j : Nat} (x : LGroup) (n : j ≠ k) : (s.setLg k x).lg j = s.lg j := by
  simp [State.setLg, State.lg, tget_tset_ne _ _ _ _ n]

@[simp] theorem xg_setXg_same (k : Nat) (x : XGroup) : (s.setXg k x).xg k = x := by simp [State.setXg, State.xg]

theorem xg_setXg_ne {k j : Nat} (x : XGroup) (n : j ≠ k) : (s.setXg k x).xg j = s.xg j := by
  simp [State.setXg, State.xg, tget_tset_ne _ _ _ _ n]

@[simp] theorem ps_setPs_same (k : Nat) (x : PStream) : (s.setPs k x).ps k = x := by simp [State.setPs, State.ps]

theorem ps_setPs_ne {k j : Nat} (x : PStream) (n : j ≠ k) : (s.setPs k x).ps j = s.ps j := by
  simp [State.setPs, State.ps, tget_tset_ne _ _ _ _ n]

@[simp] theorem sl_setSl_same (k : Nat) (x : SList) : (s.setSl k x).sl k = x := by simp [State.setSl, State.sl]

theorem sl_setSl_ne {k j : Nat} (x : SList) (n : j ≠ k) : (s.setSl k x).sl j = s.sl j := by
  simp [State.setSl, State.sl, tget_tset_ne _ _ _ _ n]

end Sys2Proof.Machine
end

