-- ==== Sys2Proof/Laws/Finish.lean ====
section
/-! SUPPORT. What follows a command (`State.finish`): on a calm state it is the interrupt lines alone, which touch the controller's
own state, the pending bits of MSI-X and what was sent. -/

namespace Sys2Proof.Machine

/-- A fold of updates keeps what each update keeps. -/
theorem iter_keeps {α β : Type} (g : State → β) (l : List α) (f : α → State → State) (h : ∀ a s, g (f a s) = g s) (s : State) :
    g (iter l f s) = g s := by
  unfold iter
  induction l generalizing s with
  | nil => rfl
  | cons a t ih => rw [List.foldl_cons, ih, h]

theorem iter_keeps_mem {α β : Type} (g : State → β) (l : List α) (f : α → State → State) (h : ∀ a ∈ l, ∀ s, g (f a s) = g s)
    (s : State) : g (iter l f s) = g s := by
  unfold iter
  induction l generalizing s with
  | nil => rfl
  | cons a t ih =>
    rw [List.foldl_cons, ih (fun b m => h b (List.mem_cons_of_mem _ m)), h a List.mem_cons_self]

/-! ### The interrupt lines -/

/-- A FENCE_HOST touches what was sent and what it confirms, nothing else. -/
theorem readBack_keeps {β : Type} (g : State → β) (h1 : ∀ s m, g (State.emit s m) = g s) (h3 : ∀ s x, g { s with hostOpen := x } = g s)
    (s : State) (b : Bool) : g (s.readBack b) = g s := by
  unfold State.readBack
  split
  · rfl
  · exact (h3 (State.emit s _) _).trans (h1 _ _)

theorem sendVector_keeps {β : Type} (g : State → β) (h1 : ∀ s m, g (State.emit s m) = g s)
    (h3 : ∀ s x, g { s with hostOpen := x } = g s) (h2 : ∀ s v w, v < 2 → g (State.setReg s (Adr.MSIX_PBA v) w) = g s) (s : State) {v : Nat} (hv : v < 64) :
    g (s.sendVector v) = g s := by
  unfold State.sendVector
  split
  · exact (h1 _ _).trans (readBack_keeps g h1 h3 _ _)
  · exact h2 _ _ _ (by omega)

/-- What the settling of the lines keeps: anything that neither the lines, nor a message or a FENCE_HOST, nor a pending bit of MSI-X
touches. -/
theorem settle_keeps {β : Type} (g : State → β) (h0 : ∀ s x, g { s with ic := x } = g s) (h1 : ∀ s m, g (State.emit s m) = g s)
    (h4 : ∀ s x, g { s with hostOpen := x } = g s) (h2 : ∀ s v w, v < 2 → g (State.setReg s (Adr.MSIX_PBA v) w) = g s) (s : State) : g (settle s) = g s := by
  have hv : ∀ v s, v < 64 → g (State.sendVector s v) = g s := fun v s => sendVector_keeps g h1 h4 h2 s
  have hl : ∀ l s, g (State.lineMsg s l) = g s := by
    intro l s
    unfold State.lineMsg
    split
    · exact hv _ _ (Nat.mod_lt _ (by decide))
    · rfl
  have hd : ∀ v, v < 64 → ∀ s, g (State.dropPba s v) = g s := by
    intro v lt s
    unfold State.dropPba
    split
    · split
      · exact h2 _ _ _ (by omega)
      · split
        · rw [hv _ _ lt]; exact h2 _ _ _ (by omega)
        · rfl
    · rfl
  have hs : g s.setLines = g s := by
    unfold State.setLines
    refine (iter_keeps g _ _ ?_ _).trans ?_
    · intro l s
      split
      · exact hl _ _
      · rfl
    · split
      · exact (readBack_keeps g h1 h4 _ _).trans (h0 _ _)
      · exact h0 _ _
  unfold settle
  simp only
  split
  · exact hs
  · rw [iter_keeps_mem g _ _ (fun v m s => hd v (List.mem_range.mp m) s), hs]

@[simp] theorem settle_fuse (s : State) : (settle s).fuse = s.fuse :=
  settle_keeps (·.fuse) (fun _ _ => rfl) (fun _ _ => rfl) (fun _ _ => rfl) (fun _ _ _ _ => rfl) s
@[simp] theorem settle_force (s : State) : (settle s).force = s.force :=
  settle_keeps (·.force) (fun _ _ => rfl) (fun _ _ => rfl) (fun _ _ => rfl) (fun _ _ _ _ => rfl) s
@[simp] theorem settle_holdR (s : State) : (settle s).holdR = s.holdR :=
  settle_keeps (·.holdR) (fun _ _ => rfl) (fun _ _ => rfl) (fun _ _ => rfl) (fun _ _ _ _ => rfl) s
@[simp] theorem settle_holdW (s : State) : (settle s).holdW = s.holdW :=
  settle_keeps (·.holdW) (fun _ _ => rfl) (fun _ _ => rfl) (fun _ _ => rfl) (fun _ _ _ _ => rfl) s
@[simp] theorem settle_loads (s : State) : (settle s).loads = s.loads :=
  settle_keeps (·.loads) (fun _ _ => rfl) (fun _ _ => rfl) (fun _ _ => rfl) (fun _ _ _ _ => rfl) s
@[simp] theorem settle_gpio (s : State) : (settle s).gpio = s.gpio :=
  settle_keeps (·.gpio) (fun _ _ => rfl) (fun _ _ => rfl) (fun _ _ => rfl) (fun _ _ _ _ => rfl) s
@[simp] theorem settle_clk (s : State) : (settle s).clk = s.clk :=
  settle_keeps (·.clk) (fun _ _ => rfl) (fun _ _ => rfl) (fun _ _ => rfl) (fun _ _ _ _ => rfl) s
@[simp] theorem settle_dom (s : State) : (settle s).dom = s.dom :=
  settle_keeps (·.dom) (fun _ _ => rfl) (fun _ _ => rfl) (fun _ _ => rfl) (fun _ _ _ _ => rfl) s
@[simp] theorem settle_evts (s : State) : (settle s).evts = s.evts :=
  settle_keeps (·.evts) (fun _ _ => rfl) (fun _ _ => rfl) (fun _ _ => rfl) (fun _ _ _ _ => rfl) s
@[simp] theorem settle_thm (s : State) : (settle s).thm = s.thm :=
  settle_keeps (·.thm) (fun _ _ => rfl) (fun _ _ => rfl) (fun _ _ => rfl) (fun _ _ _ _ => rfl) s
@[simp] theorem settle_flt (s : State) : (settle s).flt = s.flt :=
  settle_keeps (·.flt) (fun _ _ => rfl) (fun _ _ => rfl) (fun _ _ => rfl) (fun _ _ _ _ => rfl) s
@[simp] theorem settle_win (s : State) : (settle s).win = s.win :=
  settle_keeps (·.win) (fun _ _ => rfl) (fun _ _ => rfl) (fun _ _ => rfl) (fun _ _ _ _ => rfl) s
@[simp] theorem settle_pll (s : State) : (settle s).pll = s.pll :=
  settle_keeps (·.pll) (fun _ _ => rfl) (fun _ _ => rfl) (fun _ _ => rfl) (fun _ _ _ _ => rfl) s
@[simp] theorem settle_seq (s : State) : (settle s).seq = s.seq :=
  settle_keeps (·.seq) (fun _ _ => rfl) (fun _ _ => rfl) (fun _ _ => rfl) (fun _ _ _ _ => rfl) s
@[simp] theorem settle_boot (s : State) : (settle s).boot = s.boot :=
  settle_keeps (·.boot) (fun _ _ => rfl) (fun _ _ => rfl) (fun _ _ => rfl) (fun _ _ _ _ => rfl) s
@[simp] theorem settle_flash (s : State) : (settle s).flash = s.flash :=
  settle_keeps (·.flash) (fun _ _ => rfl) (fun _ _ => rfl) (fun _ _ => rfl) (fun _ _ _ _ => rfl) s
@[simp] theorem settle_flops (s : State) : (settle s).flops = s.flops :=
  settle_keeps (·.flops) (fun _ _ => rfl) (fun _ _ => rfl) (fun _ _ => rfl) (fun _ _ _ _ => rfl) s
@[simp] theorem settle_dram (s : State) : (settle s).dram = s.dram :=
  settle_keeps (·.dram) (fun _ _ => rfl) (fun _ _ => rfl) (fun _ _ => rfl) (fun _ _ _ _ => rfl) s
@[simp] theorem settle_dch (s : State) : (settle s).dch = s.dch :=
  settle_keeps (·.dch) (fun _ _ => rfl) (fun _ _ => rfl) (fun _ _ => rfl) (fun _ _ _ _ => rfl) s
@[simp] theorem settle_dctl (s : State) : (settle s).dctl = s.dctl :=
  settle_keeps (·.dctl) (fun _ _ => rfl) (fun _ _ => rfl) (fun _ _ => rfl) (fun _ _ _ _ => rfl) s
@[simp] theorem settle_qf (s : State) : (settle s).qf = s.qf :=
  settle_keeps (·.qf) (fun _ _ => rfl) (fun _ _ => rfl) (fun _ _ => rfl) (fun _ _ _ _ => rfl) s
@[simp] theorem settle_pools (s : State) : (settle s).pools = s.pools :=
  settle_keeps (·.pools) (fun _ _ => rfl) (fun _ _ => rfl) (fun _ _ => rfl) (fun _ _ _ _ => rfl) s
@[simp] theorem settle_lnd (s : State) : (settle s).lnd = s.lnd :=
  settle_keeps (·.lnd) (fun _ _ => rfl) (fun _ _ => rfl) (fun _ _ => rfl) (fun _ _ _ _ => rfl) s
@[simp] theorem settle_hdrs (s : State) : (settle s).hdrs = s.hdrs :=
  settle_keeps (·.hdrs) (fun _ _ => rfl) (fun _ _ => rfl) (fun _ _ => rfl) (fun _ _ _ _ => rfl) s
@[simp] theorem settle_xcv (s : State) : (settle s).xcv = s.xcv :=
  settle_keeps (·.xcv) (fun _ _ => rfl) (fun _ _ => rfl) (fun _ _ => rfl) (fun _ _ _ _ => rfl) s
@[simp] theorem settle_fct (s : State) : (settle s).fct = s.fct :=
  settle_keeps (·.fct) (fun _ _ => rfl) (fun _ _ => rfl) (fun _ _ => rfl) (fun _ _ _ _ => rfl) s
@[simp] theorem settle_cod (s : State) : (settle s).cod = s.cod :=
  settle_keeps (·.cod) (fun _ _ => rfl) (fun _ _ => rfl) (fun _ _ => rfl) (fun _ _ _ _ => rfl) s
@[simp] theorem settle_play (s : State) : (settle s).play = s.play :=
  settle_keeps (·.play) (fun _ _ => rfl) (fun _ _ => rfl) (fun _ _ => rfl) (fun _ _ _ _ => rfl) s
@[simp] theorem settle_sch (s : State) : (settle s).sch = s.sch :=
  settle_keeps (·.sch) (fun _ _ => rfl) (fun _ _ => rfl) (fun _ _ => rfl) (fun _ _ _ _ => rfl) s
@[simp] theorem settle_ptp (s : State) : (settle s).ptp = s.ptp :=
  settle_keeps (·.ptp) (fun _ _ => rfl) (fun _ _ => rfl) (fun _ _ => rfl) (fun _ _ _ _ => rfl) s
@[simp] theorem settle_dma (s : State) : (settle s).dma = s.dma :=
  settle_keeps (·.dma) (fun _ _ => rfl) (fun _ _ => rfl) (fun _ _ => rfl) (fun _ _ _ _ => rfl) s
@[simp] theorem settle_dmaArb (s : State) : (settle s).dmaArb = s.dmaArb :=
  settle_keeps (·.dmaArb) (fun _ _ => rfl) (fun _ _ => rfl) (fun _ _ => rfl) (fun _ _ _ _ => rfl) s
@[simp] theorem settle_answers (s : State) : (settle s).answers = s.answers :=
  settle_keeps (·.answers) (fun _ _ => rfl) (fun _ _ => rfl) (fun _ _ => rfl) (fun _ _ _ _ => rfl) s
@[simp] theorem settle_rd (s : State) : (settle s).rd = s.rd :=
  settle_keeps (·.rd) (fun _ _ => rfl) (fun _ _ => rfl) (fun _ _ => rfl) (fun _ _ _ _ => rfl) s
@[simp] theorem settle_freeCtr (s : State) : (settle s).freeCtr = s.freeCtr :=
  settle_keeps (·.freeCtr) (fun _ _ => rfl) (fun _ _ => rfl) (fun _ _ => rfl) (fun _ _ _ _ => rfl) s
@[simp] theorem settle_pending (s : State) : (settle s).pending = s.pending :=
  settle_keeps (·.pending) (fun _ _ => rfl) (fun _ _ => rfl) (fun _ _ => rfl) (fun _ _ _ _ => rfl) s

/-- A register other than the pending bits of MSI-X keeps its value. -/
theorem settle_reg (s : State) (a : Nat) (h : ∀ v < 2, a ≠ Adr.MSIX_PBA v) : (settle s).reg a = s.reg a :=
  settle_keeps (·.reg a) (fun _ _ => rfl) (fun _ _ => rfl) (fun _ _ => rfl) (fun s v w lt => reg_setReg_ne s w (h v lt)) s

theorem settle_z (s : State) (a : Nat) (h : ∀ v < 2, a ≠ Adr.MSIX_PBA v) : (settle s).z a = s.z a :=
  settle_keeps (·.z a) (fun _ _ => rfl) (fun _ _ => rfl) (fun _ _ => rfl) (fun s v w lt => z_setReg_ne s w (h v lt)) s

/-- Messages are only added to what was sent. -/
theorem settle_sent (s : State) : s.sent <+: (settle s).sent := by
  have iterP : ∀ {α : Type} (l : List α) (f : α → State → State), (∀ a u, s.sent <+: u.sent → s.sent <+: (f a u).sent) →
      ∀ u : State, s.sent <+: u.sent → s.sent <+: (iter l f u).sent := by
    intro α l f h u hu
    unfold iter
    induction l generalizing u with
    | nil => exact hu
    | cons a t ih => rw [List.foldl_cons]; exact ih _ (h _ _ hu)
  have hr : ∀ u : State, s.sent <+: u.sent → s.sent <+: (State.readBack u).sent := by
    intro u h
    unfold State.readBack
    split
    · exact h
    · exact h.trans (List.prefix_append _ _)
  have hv : ∀ v u, s.sent <+: u.sent → s.sent <+: (State.sendVector u v).sent := by
    intro v u h
    unfold State.sendVector
    split
    · exact (hr u h).trans (List.prefix_append _ _)
    · exact h
  have h1 : s.sent <+: s.setLines.sent := by
    unfold State.setLines
    refine iterP _ _ ?_ _ ?_
    · intro l u h
      split
      · unfold State.lineMsg
        split
        · exact hv _ _ h
        · exact h
      · exact h
    · split
      · exact hr _ (List.prefix_refl _)
      · exact List.prefix_refl _
  unfold settle
  simp only
  split
  · exact h1
  · refine iterP _ _ ?_ _ h1
    intro v u h
    unfold State.dropPba
    split
    · split
      · exact h
      · split
        · exact hv _ _ h
        · exact h
    · exact h

/-! ### The collector and the fences -/

theorem collect_quiet (s : State) (n : Nat) (h : s.flt.bufs = []) : s.collect n = s := by
  cases n with
  | zero => rfl
  | succ n => simp [State.collect, h]

theorem resumeDrains_quiet (s : State) (h : s.noDrain = true) : s.resumeDrains = s := by
  unfold State.resumeDrains
  rw [show s.qf.filter _ = [] from ?_]
  · rfl
  · simp only [State.noDrain, List.all_eq_true] at h
    rw [List.filter_eq_nil_iff]
    intro x m
    simpa using h x m

theorem fenceScan_quiet (s : State) (h : s.noFence = true) : s.fenceScan = s := by
  simp only [State.noFence, List.all_eq_true] at h
  have k : ∀ (l : List (Nat × Window)) (u : State), (∀ x ∈ l, (match x.2.wait with | .fence _ _ _ => false | _ => true) = true) →
      iter l (fun (x : Nat × Window) s => match x.2.wait with
        | .fence kind _ jobs => if s.fenceMet kind jobs then s.fenceAnswer x.1 kind else s
        | _ => s) u = u := by
    intro l
    induction l with
    | nil => intro _ _; rfl
    | cons x t ih =>
      intro u hx
      have e := hx x List.mem_cons_self
      rw [iter, List.foldl_cons, ← iter, show (match x.2.wait with
        | .fence kind _ jobs => if u.fenceMet kind jobs then u.fenceAnswer x.1 kind else u
        | _ => u) = u from ?_]
      · exact ih u fun y m => hx y (List.mem_cons_of_mem _ m)
      · split at e <;> simp_all
  exact k s.win s h

/-- On a calm state what follows a command is the lines alone. -/
theorem finish_calm (s u : State) (h : u.calm = true) (hf : u.fuse = s.fuse) :
    s.finish u = { settle u with fuse := s.fuse, pending := s.pending } := by
  simp only [State.calm, Bool.and_eq_true, decide_eq_true_eq] at h
  rw [State.finish, resumeDrains_quiet _ h.2, collect_quiet _ _ h.1.1, fenceScan_quiet _ h.1.2, ← hf]
  show { settle u with pending := s.pending } = { settle u with fuse := u.fuse, pending := s.pending }
  rw [← settle_fuse u]

/-- A command whose own effect leaves a calm state completes, with the lines after it. -/
theorem completes_calm {c : Instr} {s u : State} {f : State → State} {P : State → Prop} (e : exec c s = runs s f) (hu : f s = u)
    (hc : u.calm = true) (hf : u.fuse = s.fuse) (hp : P { settle u with fuse := s.fuse, pending := s.pending }) : Completes c s P := by
  refine ⟨_, ?_, hp⟩
  rw [e, runs, hu, finish_calm _ _ hc hf]

/-- Reading a register of what is left after a command. -/
theorem reg_left (u : State) (f : Fuse) (p : List Instr) (h : f = u.fuse) (a : Nat) :
    State.reg { u with fuse := f, pending := p } a = u.reg a := by
  subst h; rfl

end Sys2Proof.Machine
end

