-- ==== Sys2Proof/Laws/Fabric.lean ====
section
/-! SUPPORT. What the operations of the queue fabric and of the pools leave alone: an observation that the queues, the registers,
the pools, the bytes of DRAM, the collector's buffers, the answers to allocations and the traffic to the host do not enter is the
same after each of them. -/

namespace Sys2Proof.Machine

/-- The observation sees nothing that the fabric changes. -/
structure FabInv {β : Type} (g : State → β) : Prop where
  qf : ∀ s x, g { s with qf := x } = g s
  regs : ∀ s x, g { s with regs := x } = g s
  pools : ∀ s x, g { s with pools := x } = g s
  dram : ∀ s x, g { s with dram := x } = g s
  flt : ∀ s x, g { s with flt := x } = g s
  answers : ∀ s x, g { s with answers := x } = g s
  sent : ∀ s x, g { s with sent := x } = g s
  hostOpen : ∀ s x, g { s with hostOpen := x } = g s

variable {β : Type} {g : State → β} (h : FabInv g)
include h

/-! ### Registers and reports -/

theorem FabInv.setReg (s : State) (a : Nat) (v : Word) : g (s.setReg a v) = g s := h.regs _ _
theorem FabInv.setRegN (s : State) (a n : Nat) : g (s.setRegN a n) = g s := h.setReg _ _ _
theorem FabInv.setFld (s : State) (a lo w x : Nat) : g (s.setFld a lo w x) = g s := h.setReg _ _ _
theorem FabInv.bumpBy (s : State) (a n : Nat) : g (s.bumpBy a n) = g s := h.setReg _ _ _
theorem FabInv.bump (s : State) (a : Nat) : g (s.bump a) = g s := h.setReg _ _ _
theorem FabInv.bumpFld (s : State) (a lo w n : Nat) : g (s.bumpFld a lo w n) = g s := h.setReg _ _ _
theorem FabInv.raise (s : State) (a n : Nat) : g (s.raise a n) = g s := h.setReg _ _ _

theorem FabInv.report (s : State) (r : Report) (i : Bool) (a : Nat) (f : Bool) : g (s.report r i a f) = g s := by
  unfold State.report
  simp only
  split
  · exact h.flt _ _
  · rw [h.raise, h.bump]

theorem FabInv.reportHw (s : State) (b c u x y a : Nat) : g (s.reportHw b c u x y a) = g s := h.report _ _ _ _ _
theorem FabInv.reportSw (s : State) (b c r x y : Nat) : g (s.reportSw b c r x y) = g s := h.report _ _ _ _ _
theorem FabInv.qEvent (s : State) (q n : Nat) : g (s.qEvent q n) = g s := by
  unfold State.qEvent; rw [h.setRegN, h.raise]

theorem FabInv.setQueue (s : State) (q : Nat) (x : Queue) : g (s.setQueue q x) = g s := h.qf _ _
theorem FabInv.modQueue (s : State) (q : Nat) (f : Queue → Queue) : g (s.modQueue q f) = g s := h.qf _ _

theorem FabInv.poisonMark (s : State) (q i : Nat) : g (s.poisonMark q i) = g s := by
  unfold State.poisonMark; rw [h.bump, h.setQueue]

theorem FabInv.poisonRaise (s : State) (q i : Nat) : g (s.poisonRaise q i) = g s := by
  unfold State.poisonRaise; rw [h.reportHw, h.qEvent]

theorem FabInv.poisonWord (s : State) (q i : Nat) : g (s.poisonWord q i) = g s := by
  unfold State.poisonWord; rw [h.poisonRaise, h.bump, h.poisonMark]

theorem FabInv.checkWord (s : State) (q i : Nat) : g (s.checkWord q i) = g s := by
  unfold State.checkWord
  simp only
  split
  · rfl
  · exact h.poisonWord _ _ _

theorem FabInv.dramRefuse (s : State) (p a c : Nat) : g (s.dramRefuse p a c) = g s := by
  unfold State.dramRefuse State.dmcEvt
  split
  · exact h.reportSw _ _ _ _ _ _
  · split
    · simp only [h.reportSw, h.raise]
    · rfl

theorem FabInv.dramPut (s : State) (p a : Nat) (l : List Byte) : g (s.dramPut p a l) = g s := by
  unfold State.dramPut
  simp only
  split
  · exact h.dram _ _
  · exact h.dramRefuse _ _ _ _

theorem FabInv.readBack (s : State) (b : Bool) : g (s.readBack b) = g s :=
  readBack_keeps g (fun _ _ => h.sent _ _) h.hostOpen s b

/-! ### Pools -/

theorem FabInv.setPool (s : State) (k : Nat) (p : Pool) : g (s.setPool k p) = g s := h.pools _ _
theorem FabInv.setOwner (s : State) (x : Word) (v : Nat) : g (s.setOwner x v) = g s := h.dramPut _ _ _ _
theorem FabInv.charge (s : State) (r k : Nat) : g (s.charge r k) = g s := h.setFld _ _ _ _ _
theorem FabInv.uncharge (s : State) (r k : Nat) : g (s.uncharge r k) = g s := h.setFld _ _ _ _ _

theorem FabInv.noteMinFree (s : State) (k : Nat) : g (s.noteMinFree k) = g s := by
  unfold State.noteMinFree
  split
  · exact h.setFld _ _ _ _ _
  · rfl

theorem FabInv.answerAlloc (s : State) (r c : Nat) (x : Word) : g (s.answerAlloc r c x) = g s := by
  unfold State.answerAlloc
  simp only
  split
  · rw [h.setReg, h.setRegN]; exact h.answers _ _
  · exact h.answers _ _

theorem FabInv.refuseAlloc (s : State) (r c : Nat) : g (s.refuseAlloc r c) = g s := by
  unfold State.refuseAlloc; rw [h.answerAlloc, h.bump]

theorem FabInv.emptyAt (s : State) (k : Nat) (a : PoolAsk) : g (s.emptyAt k a).2 = g s := by
  unfold State.emptyAt
  simp only
  split
  · simp only [h.raise, h.bump]
  · simp only [h.refuseAlloc, h.raise, h.bump]

theorem FabInv.grantBuf (s : State) (k : Nat) (a : PoolAsk) (x : Word) (p : Pool) : g (s.grantBuf k a x p) = g s := by
  unfold State.grantBuf
  simp only [h.answerAlloc, h.noteMinFree]
  split <;> simp only [h.bump, h.charge, h.setOwner, h.setPool]

theorem FabInv.serveAlloc (s : State) (k : Nat) (a : PoolAsk) : g (s.serveAlloc k a).2 = g s := by
  unfold State.serveAlloc
  split
  · simp only [h.refuseAlloc, h.raise]
  · split
    · split
      · exact h.setPool _ _ _
      · exact h.grantBuf _ _ _ _ _
    · exact h.emptyAt _ _ _

theorem FabInv.emptyAll (k : Nat) (l : List PoolAsk) (s : State) : g (s.emptyAll k l).2 = g s := by
  induction l generalizing s with
  | nil => rfl
  | cons a t ih => unfold State.emptyAll; simp only; rw [ih, h.emptyAt]

theorem FabInv.serveRound (s : State) (k : Nat) (a : PoolAsk) (l j : List PoolAsk) : g (s.serveRound k a l j).2 = g s := by
  unfold State.serveRound
  simp only
  split
  · rw [h.emptyAll, h.setPool, h.serveAlloc, h.setPool]
  · simp only [h.serveAlloc, h.setPool]

theorem FabInv.arbitrate (n k : Nat) (l : List PoolAsk) (s : State) : g (s.arbitrate n k l) = g s := by
  induction n generalizing k l s with
  | zero => rfl
  | succ n ih =>
    have e : ∀ (y : List PoolAsk × State), g y.2 = g s → g (if y.1 = [] then y.2 else y.2.arbitrate n (k + 1) y.1) = g s := by
      intro y hy
      split
      · exact hy
      · rw [ih]; exact hy
    unfold State.arbitrate
    simp only
    generalize (if (s.pool k).waiting = [] then lowestAsk l else rrFirst (s.pool k).ptr (s.pool k).waiting) = o
    cases o with
    | none => rfl
    | some a => exact e _ (h.serveRound _ _ _ _ _)

theorem FabInv.ringWrite (s : State) (k : Nat) (l : List Word) : g (s.ringWrite k l) = g s := by
  unfold State.ringWrite
  simp only
  rw [h.setPool]
  exact iter_keeps g _ _ (fun _ _ => h.dramPut _ _ _ _) s

theorem FabInv.badFree (s : State) (r : Nat) (x : Word) (c : Nat) (o : Bool) : g (s.badFree r x c o) = g s := by
  unfold State.badFree
  simp only
  split <;> simp only [h.reportHw, h.reportSw, h.raise, h.setReg, h.setRegN, h.bump]

theorem FabInv.balance (s : State) (k : Nat) : g (s.balance k) = g s := by
  unfold State.balance
  simp only
  split
  · rw [h.ringWrite, h.setPool]
  · rfl

theorem FabInv.putBack (s : State) (x : Word) : g (s.putBack x) = g s := by
  unfold State.putBack
  simp only [h.balance, h.setPool, h.setOwner]

theorem FabInv.freeBuf (s : State) (r : Nat) (x : Word) (e : Bool) : g (s.freeBuf r x e).2 = g s := by
  unfold State.freeBuf
  split
  · simp only [h.badFree]
  · split
    · simp only [h.badFree]
    · split
      · simp only [h.badFree]
      · split
        · simp only [h.badFree]
        · simp only [h.putBack, h.uncharge]

/-! ### Stores and the chain -/

theorem FabInv.putLink (s : State) (c : Chain) (n : Nat) : g (s.putLink c n) = g s := h.dramPut _ _ _ _

theorem FabInv.fabricBuf (s : State) : g s.fabricBuf.2 = g s := by
  have one : g (if s.fabricHas.isSome || (s.pool 2).waiting.any (·.r = 0) then s else s.arbitrate 6 2 [⟨0, false⟩]) = g s := by
    split
    · rfl
    · exact h.arbitrate _ _ _ _
  unfold State.fabricBuf
  simp only
  split
  · exact (h.answers _ _).trans one
  · exact one

theorem FabInv.newChain (s : State) (q : Nat) : g (s.newChain q).2 = g s := by
  unfold State.newChain
  simp only
  split
  · exact h.fabricBuf s
  · simp only [h.bumpFld, h.setQueue, h.putLink]
    split
    · rw [h.putLink]; exact h.fabricBuf s
    · exact h.fabricBuf s

theorem FabInv.chainRoom (s : State) (q : Nat) : g (s.chainRoom q).2 = g s := by
  unfold State.chainRoom
  simp only
  split
  · split
    · exact h.setQueue _ _ _
    · exact h.newChain _ _
  · exact h.newChain _ _

theorem FabInv.drainWords (q n : Nat) (s : State) : g (s.drainWords q n) = g s := by
  induction n generalizing s with
  | zero => exact h.modQueue _ _ _
  | succ n ih =>
    unfold State.drainWords
    have hc := h.chainRoom s q
    split
    · next e => rw [e] at hc; exact (h.modQueue _ _ _).trans hc
    · next e =>
      rw [e] at hc
      simp only
      rw [ih, h.modQueue]
      split
      · rw [h.dramPut, h.checkWord]; exact hc
      · rw [h.checkWord]; exact hc

theorem FabInv.spill (s : State) (q : Nat) : g (s.spill q) = g s := by
  unfold State.spill
  simp only
  split
  · exact h.drainWords _ _ _
  · rfl

theorem FabInv.freeChain (s : State) (c : Chain) : g (s.freeChain c) = g s := by
  unfold State.freeChain
  rw [h.setFld, h.freeBuf]

theorem FabInv.pull (s : State) (q : Nat) : g (s.pull q) = g s := by
  unfold State.pull
  simp only
  split
  · exact h.setQueue _ _ _
  · rfl

/-! ### Enqueue, EOP and the lock -/

theorem FabInv.stallAt (s : State) (q : Nat) (w : Full) : g (s.stallAt q w) = g s := by
  unfold State.stallAt
  split
  · rfl
  · simp only
    cases w with
    | limit => exact h.modQueue _ _ _
    | stores =>
      simp only
      split <;> simp only [h.reportHw, h.qEvent, h.modQueue]

theorem FabInv.flushStall (s : State) (q : Nat) : g (s.flushStall q) = g s := by
  unfold State.flushStall
  split
  · rfl
  · rw [h.bumpBy, h.modQueue]

theorem FabInv.unstall (s : State) (q : Nat) : g (s.unstall q) = g s := by
  unfold State.unstall
  split
  · rw [h.modQueue, h.flushStall]
  · rfl

theorem FabInv.enqWords (q : Nat) (p : Bool) (n : Nat) (l : List Byte) (s : State) : g (s.enqWords q p n l) = g s := by
  induction n generalizing s l with
  | zero => unfold State.enqWords; rfl
  | succ n ih =>
    cases l with
    | nil => unfold State.enqWords; rfl
    | cons b t =>
      unfold State.enqWords
      simp only
      split
      · rw [ih, h.spill, h.setQueue]
      · split
        · rw [h.modQueue, h.stallAt]
        · rw [ih, h.spill, h.pull, h.setQueue]

theorem FabInv.enqBytes (s : State) (q : Nat) (l : List Byte) (p : Bool) : g (s.enqBytes q l p) = g s := by
  unfold State.enqBytes
  simp only
  split
  · rw [h.setRegN, h.enqWords]
  · exact h.enqWords _ _ _ _ _

theorem FabInv.eopNow (s : State) (q tag : Nat) (f : PktFence) (x : Option (Word × Nat)) : g (s.eopNow q tag f x) = g s := by
  unfold State.eopNow
  simp only
  split
  · rfl
  · simp only [h.spill]
    split <;> simp only [h.setOwner, h.setQueue]

theorem FabInv.pump (q n : Nat) (s : State) : g (s.pump q n) = g s := by
  induction n generalizing s with
  | zero => rfl
  | succ n ih =>
    unfold State.pump
    simp only
    split
    · exact h.unstall _ _
    · split
      · rw [ih, h.setQueue]
      · split
        · rfl
        · split
          · rw [h.enqBytes, h.setQueue, h.unstall]
          · rw [ih, h.enqBytes, h.setQueue, h.unstall]
    · rw [ih, h.eopNow, h.setQueue]
    · rw [ih, h.setQueue]

theorem FabInv.endPkt (s : State) (q tag : Nat) (f : PktFence) (x : Option (Word × Nat)) : g (s.endPkt q tag f x) = g s := by
  unfold State.endPkt
  split
  · exact h.modQueue _ _ _
  · exact h.eopNow _ _ _ _ _

theorem FabInv.grant (q n : Nat) (s : State) : g (s.grant q n) = g s := by
  induction n generalizing s with
  | zero => rfl
  | succ n ih =>
    unfold State.grant
    simp only
    split
    · rfl
    · split
      · rfl
      · split
        · exact h.setQueue _ _ _
        · rw [ih, h.endPkt, h.enqBytes, h.setQueue]

theorem FabInv.grantLock (s : State) (q : Nat) : g (s.grantLock q) = g s := h.grant _ _ _

theorem FabInv.pumpAll (s : State) (q : Nat) : g (s.pumpAll q) = g s := by
  unfold State.pumpAll
  rw [h.grantLock, h.pump]

theorem FabInv.pktStart (s : State) (q : Nat) (l : List Nat) : g (s.pktStart q l).2 = g s := by
  unfold State.pktStart
  split
  · rfl
  · simp only
    split
    · exact h.setQueue _ _ _
    · simp only [h.grantLock, h.setQueue]

theorem FabInv.enqueue (s : State) (q p : Nat) (l : List Byte) (b : Bool) : g (s.enqueue q p l b).2 = g s := by
  unfold State.enqueue
  split
  · rfl
  · split
    · rfl
    · split
      · rfl
      · split
        · simp only [h.modQueue]
        · simp only [h.enqBytes]

theorem FabInv.eop (s : State) (q p tag : Nat) (f : PktFence) (x : Option Nat) (e : Bool) : g (s.eop q p tag f x e).2 = g s := by
  unfold State.eop
  split
  · rfl
  · simp only
    split
    · rfl
    · split
      · rfl
      · split
        · simp only [h.grantLock, h.endPkt]
        · split
          · rfl
          · split
            · simp only [h.reportHw, h.raise]
            · split
              · rfl
              · simp only [h.grantLock, h.endPkt]

theorem FabInv.startNext (s : State) (q p : Nat) : g (s.startNext q p) = g s := by
  unfold State.startNext
  split
  · exact h.modQueue _ _ _
  · exact h.pktStart _ _ _

theorem FabInv.sendAll (s : State) (q p : Nat) (l : List (Nat × List Byte)) (f : PktFence) (b : Bool) : g (s.sendAll q p l f b).2 = g s := by
  unfold State.sendAll
  split
  · rfl
  · simp only [h.grantLock, h.modQueue]

theorem FabInv.sendPkt (s : State) (q p tag : Nat) (l : List Byte) (b : Bool) : g (s.sendPkt q p tag l b).2 = g s :=
  h.sendAll _ _ _ _ _ _

/-! ### Notices, release and rewind -/

theorem FabInv.issue (s : State) (q : Nat) : g (s.issue q) = g s := by
  unfold State.issue
  simp only
  split
  · rfl
  · split
    · rfl
    · rw [h.grantLock, h.bump, h.setQueue]
      split
      · exact h.readBack _ _
      · rfl

theorem FabInv.takeNotice (s : State) (q : Nat) : g (s.takeNotice q) = g s := by
  unfold State.takeNotice
  simp only
  split
  · rfl
  · split
    · exact h.setQueue _ _ _
    · split
      · exact h.setQueue _ _ _
      · rw [h.charge, h.uncharge, h.setOwner, h.setQueue]

theorem FabInv.releaseTo (s : State) (q c : Nat) : g (s.releaseTo q c) = g s := by
  unfold State.releaseTo
  simp only
  rw [h.pumpAll, iter_keeps g _ _ (fun b s => h.freeChain s b), h.setQueue]

theorem FabInv.poisonChain (s : State) (q i : Nat) : g (s.poisonChain q i) = g s := by
  unfold State.poisonChain
  simp only
  split
  · rfl
  · rw [h.poisonRaise]; exact iter_keeps g _ _ (fun _ _ => h.poisonMark _ _ _) s

theorem FabInv.linkCheck (s : State) (q i : Nat) : g (s.linkCheck q i) = g s := by
  unfold State.linkCheck
  split
  · split
    · rfl
    · exact h.poisonChain _ _ _
  · rfl

theorem FabInv.refillWords (q : Nat) (bad : List Nat) (n k : Nat) (s : State) : g (s.refillWords q bad n k) = g s := by
  induction n generalizing k s with
  | zero => rfl
  | succ n ih =>
    unfold State.refillWords
    split
    · rfl
    · simp only
      rw [ih]
      split
      · rw [h.poisonWord, h.modQueue, h.linkCheck]
      · rw [h.checkWord, h.modQueue, h.linkCheck]

theorem FabInv.headFill (s : State) (q : Nat) : g (s.headFill q) = g s := by
  unfold State.headFill
  split
  · rw [h.pull, h.refillWords]
  · rfl

theorem FabInv.stepRead (s : State) (q : Nat) : g (s.stepRead q) = g s := by
  unfold State.stepRead; rw [h.pull, h.setQueue]

theorem FabInv.afterWord (s : State) (q : Nat) : g (s.afterWord q) = g s := by
  unfold State.afterWord
  simp only
  split
  · exact h.releaseTo _ _ _
  · exact h.pumpAll _ _

theorem FabInv.advance (s : State) (q : Nat) : g (s.advance q) = g s := by
  unfold State.advance; rw [h.afterWord, h.stepRead]

theorem FabInv.readWords (q n : Nat) (s : State) : g (s.readWords q n).2 = g s := by
  induction n generalizing s with
  | zero => rfl
  | succ n ih => unfold State.readWords; simp only; rw [ih, h.stepRead, h.checkWord, h.headFill]

theorem FabInv.endRead (s : State) (q c : Nat) : g (s.endRead q c) = g s := by
  unfold State.endRead
  split
  · exact h.releaseTo _ _ _
  · exact h.pumpAll _ _

theorem FabInv.readPkt (s : State) (q : Nat) : g (s.readPkt q).2 = g s := by
  have e : ∀ (p : Pkt) (n : Nat), g (((((s.takeNotice q).readFrom q p.start).readWords q n).2).endRead q p.stop) = g s := by
    intro p n
    rw [h.endRead, h.readWords, State.readFrom, h.modQueue, h.takeNotice]
  unfold State.readPkt
  simp only
  split
  · rfl
  · split
    · split
      · simp only
        split
        · exact e _ _
        · rw [h.freeBuf]; exact e _ _
      · exact e _ _
    · exact e _ _

theorem FabInv.release (s : State) (q c : Nat) : g (s.release q c).2 = g s := by
  unfold State.release
  split
  · rfl
  · unfold State.releaseAt
    split
    · simp only [h.releaseTo]
    · rfl

theorem FabInv.dropHeld (s : State) (q : Nat) (p : Nat → Bool) : g (s.dropHeld q p) = g s := h.modQueue _ _ _

theorem FabInv.cutLink (s : State) (q : Nat) (d : List Chain) : g (s.cutLink q d) = g s := by
  unfold State.cutLink
  split
  · split
    · rfl
    · exact h.putLink _ _ _
  · rfl

theorem FabInv.rewindTo (s : State) (q c : Nat) : g (s.rewindTo q c) = g s := by
  have e : ∀ (b : Prop) [Decidable b] (s : State), g (if b then s.qEvent q 3 else s) = g s := by
    intro b _ s
    split
    · exact h.qEvent _ _ _
    · rfl
  unfold State.rewindTo
  simp only
  rw [h.grantLock, h.unstall, e, iter_keeps g _ _ (fun b s => h.freeChain s b), iter_keeps g, h.cutLink, h.bump, h.setQueue]
  intro p s
  split
  · split
    · rfl
    · exact h.setOwner _ _ _
  · rfl

theorem FabInv.rewind (s : State) (q c : Nat) : g (s.rewind q c).2 = g s := by
  unfold State.rewind
  split
  · rfl
  · unfold State.rewindAt
    split
    · simp only [h.rewindTo]
    · rfl

theorem FabInv.consRewind (s : State) (q c : Nat) : g (s.consRewind q c).2 = g s := by
  unfold State.consRewind
  split
  · rfl
  · unfold State.consRewindAt
    simp only
    split
    · simp only [h.bump, h.bumpBy, h.setQueue]
    · rfl

/-! ### Drains that wait -/

theorem FabInv.resumeDrains (s : State) : g s.resumeDrains = g s := by
  unfold State.resumeDrains
  refine iter_keeps g _ _ (fun q s => ?_) s
  unfold State.resumeDrain
  split
  · rw [h.pumpAll, h.drainWords]
  · rfl

end Sys2Proof.Machine
end

