-- ==== Sys2Proof/Laws/Regs.lean ====
section
/-! SUPPORT. The register tables: finding the row of an offset. -/

namespace Sys2Proof.Machine

theorem covers_single (b : Nat) (c : Acc) (r m a : Nat) : RegRow.covers ⟨b, [], c, r, m⟩ a = decide (a = b) := by
  simp only [RegRow.covers, coversOff]
  by_cases h : a = b
  · simp [h]
  · by_cases l : b ≤ a
    · have : a - b ≠ 0 := by omega
      simp [h, this]
    · simp [h, l]

theorem covers_array (b n st : Nat) (c : Acc) (r m a : Nat) :
    RegRow.covers ⟨b, [(n, st)], c, r, m⟩ a = decide (b ≤ a ∧ (a - b) / st < n ∧ (a - b) % st = 0) := by
  simp only [RegRow.covers, coversOff]
  by_cases h : b ≤ a <;> by_cases k : (a - b) / st < n <;> simp [h, k, Bool.beq_eq_decide_eq]

/-- A row that covers an offset is the row of the offset, where no row before it does. -/
theorem find_row (l : List RegRow) (r : RegRow) (k : List RegRow) (a : Nat) (h : ∀ x ∈ l, x.covers a = false) (hr : r.covers a = true) :
    (l ++ r :: k).find? (·.covers a) = some r := by
  rw [List.find?_append, List.find?_eq_none.mpr (fun x m => by simp [h x m])]
  simp [hr]

/-- The row of a word of the sequencer's data memory. -/
theorem regRow_dmem {a : Nat} (h1 : 0xA0000 ≤ a) (h2 : a < 0xB0000) (h3 : a % 4 = 0) :
    regRow a = some ⟨0xA0000, [(16384, 4)], .rw, 0, 0xFFFFFFFF⟩ := by
  have e : rowsAt a = rowsSeq := by
    unfold rowsAt
    iterate 7 rw [if_neg (by omega)]
    rw [if_pos (by omega)]
  unfold regRow
  rw [e]
  refine find_row (rowsSeq.take 22) _ (rowsSeq.drop 23) a ?_ ?_
  · intro x m
    simp only [rowsSeq, List.cons_append, List.nil_append, List.take_succ_cons, List.take_zero, List.mem_cons, List.not_mem_nil,
      or_false] at m
    rcases m with rfl | rfl | rfl | rfl | rfl | rfl | rfl | rfl | rfl | rfl | rfl | rfl | rfl | rfl | rfl | rfl | rfl | rfl | rfl |
      rfl | rfl | rfl <;> simp only [covers_single, covers_array, decide_eq_false_iff_not] <;> omega
  · simp only [covers_array, decide_eq_true_eq]
    omega

end Sys2Proof.Machine
end

