-- ==== Sys2Proof/Laws/Seq.lean ====
section
/-! SUPPORT. The sequencer's shared operations: what executing a microword does before its own effect, and what it leaves. -/

namespace Sys2Proof.Machine

variable (s : State) (l n : Nat)

@[simp] theorem fetched_sl_same : (s.fetched l n).sl l = (s.sl l).stepped n := by
  show (s.modSl l fun x => x.stepped n).sl l = _
  simp [State.modSl]

theorem fetched_sl_ne {m : Nat} (h : m ≠ l) : (s.fetched l n).sl m = s.sl m := by
  show (s.modSl l fun x => x.stepped n).sl m = _
  simp [State.modSl, sl_setSl_ne _ _ h]

@[simp] theorem fetched_cur : (s.fetched l n).seq.cur = s.seq.cur := rfl
@[simp] theorem fetched_run : (s.fetched l n).seq.run = s.seq.run + n := rfl
@[simp] theorem fetched_reg (a : Nat) : (s.fetched l n).reg a = s.reg a := rfl
@[simp] theorem fetched_z (a : Nat) : (s.fetched l n).z a = s.z a := rfl
@[simp] theorem fetched_calm : (s.fetched l n).calm = s.calm := rfl

@[simp] theorem fetched_fuse : (s.fetched l n).fuse = s.fuse := rfl
@[simp] theorem fetched_regs : (s.fetched l n).regs = s.regs := rfl
@[simp] theorem fetched_force : (s.fetched l n).force = s.force := rfl
@[simp] theorem fetched_holdR : (s.fetched l n).holdR = s.holdR := rfl
@[simp] theorem fetched_holdW : (s.fetched l n).holdW = s.holdW := rfl
@[simp] theorem fetched_loads : (s.fetched l n).loads = s.loads := rfl
@[simp] theorem fetched_gpio : (s.fetched l n).gpio = s.gpio := rfl
@[simp] theorem fetched_clk : (s.fetched l n).clk = s.clk := rfl
@[simp] theorem fetched_dom : (s.fetched l n).dom = s.dom := rfl
@[simp] theorem fetched_evts : (s.fetched l n).evts = s.evts := rfl
@[simp] theorem fetched_thm : (s.fetched l n).thm = s.thm := rfl
@[simp] theorem fetched_flt : (s.fetched l n).flt = s.flt := rfl
@[simp] theorem fetched_ic : (s.fetched l n).ic = s.ic := rfl
@[simp] theorem fetched_win : (s.fetched l n).win = s.win := rfl
@[simp] theorem fetched_pll : (s.fetched l n).pll = s.pll := rfl
@[simp] theorem fetched_boot : (s.fetched l n).boot = s.boot := rfl
@[simp] theorem fetched_flash : (s.fetched l n).flash = s.flash := rfl
@[simp] theorem fetched_flops : (s.fetched l n).flops = s.flops := rfl
@[simp] theorem fetched_dram : (s.fetched l n).dram = s.dram := rfl
@[simp] theorem fetched_dch : (s.fetched l n).dch = s.dch := rfl
@[simp] theorem fetched_dctl : (s.fetched l n).dctl = s.dctl := rfl
@[simp] theorem fetched_qf : (s.fetched l n).qf = s.qf := rfl
@[simp] theorem fetched_pools : (s.fetched l n).pools = s.pools := rfl
@[simp] theorem fetched_lnd : (s.fetched l n).lnd = s.lnd := rfl
@[simp] theorem fetched_xcv : (s.fetched l n).xcv = s.xcv := rfl
@[simp] theorem fetched_fct : (s.fetched l n).fct = s.fct := rfl
@[simp] theorem fetched_cod : (s.fetched l n).cod = s.cod := rfl
@[simp] theorem fetched_play : (s.fetched l n).play = s.play := rfl
@[simp] theorem fetched_sch : (s.fetched l n).sch = s.sch := rfl
@[simp] theorem fetched_ptp : (s.fetched l n).ptp = s.ptp := rfl
@[simp] theorem fetched_dma : (s.fetched l n).dma = s.dma := rfl
@[simp] theorem fetched_answers : (s.fetched l n).answers = s.answers := rfl
@[simp] theorem fetched_rd : (s.fetched l n).rd = s.rd := rfl
@[simp] theorem fetched_sent : (s.fetched l n).sent = s.sent := rfl
@[simp] theorem fetched_freeCtr : (s.fetched l n).freeCtr = s.freeCtr := rfl
@[simp] theorem fetched_pending : (s.fetched l n).pending = s.pending := rfl

/-- A microword where the running list's PC names it: what is left is its own effect. -/
theorem micro_runs {s : State} {l : Nat} {i : Instr} (h : Runs s l i) (n : Nat) (f : Nat → State → State) :
    s.micro i n f = f l (s.fetched l n) := by
  simp [State.micro, h.1, h.2.1, h.2.2]

/-- Elsewhere it has no effect. -/
theorem micro_elsewhere {s : State} {i : Instr} (n : Nat) (f : Nat → State → State) (h : ∀ l, s.seq.cur = some l → s.wordAt l ≠ some i) :
    s.micro i n f = s := by
  unfold State.micro
  split
  · rfl
  · next l e => simp [h l e]

@[simp] theorem setSl_cur (x : SList) : (s.setSl l x).seq.cur = s.seq.cur := rfl
@[simp] theorem setSl_run (x : SList) : (s.setSl l x).seq.run = s.seq.run := rfl
@[simp] theorem setSl_calm (x : SList) : (s.setSl l x).calm = s.calm := rfl

end Sys2Proof.Machine
end

