-- ==== Sys2Proof/Tests/Slice0.lean ====
section
/-! SUPPORT. Tests: which commands `Instr.wf` refuses, the spec's worked examples and small steps, and for every statement with
hypotheses, clause by clause, a state and operands that meet them. -/

namespace Sys2Proof.Machine

/-- A state after a completed boot, with registers set. -/
def booted (l : List (Nat × Nat)) : State :=
  l.foldl (fun s x => s.setRegN x.1 x.2) { State.reset with boot := { Boot.fresh with done := true, stage := 10 } }

/-- List 3 runs the word w at its PC. -/
def State.runs3 (s : State) (x : SList) (w : Word) : State :=
  ({ s with seq := { s.seq with lists := [(3, { x with st := 2 })], cur := some 3, started := true } } : State).setReg
    (Adr.SEQ_CSTORE x.pc) w

/-- A list with a few general registers set. -/
def slist (l : List Word) : SList := { SList.fresh with pc := 16, g := 0 :: l ++ List.replicate (15 - l.length) 0 }

/-- The state after a command. -/
def after (c : Instr) (s : State) : State :=
  match exec c s with
  | .next t => t
  | _ => s

/-- An object of 344 bytes in the form of a stored patch for base version 7: its header, and a body of zeros. -/
def patchObject : List Byte :=
  [0x50, 0x56, 0x50, 0x54, 1, 1, 255, 0, 0x58, 1] ++ List.replicate 334 0

/-- A plaintext of one PATCH record and END: patch 1 for base version 7, one word at address 16. -/
def patchText : List Byte :=
  [5, 0, 0, 0, 20, 0, 0, 0, 1, 0, 0, 0, 7, 0, 0, 0, 1, 0, 1, 0, 16, 0, 0, 0, 9, 0, 0, 0, 0, 0, 0, 0, 255, 255, 0, 0, 0, 0, 0, 0]

/-- That object in DRAM at 1 MiB, on a device whose owner's key has 97 zero bytes, with room in the patch area. -/
def patchReady : State :=
  let s := booted [(Adr.DMC_G_CFG, 0x18F)]
  { s with dram := memWrite 0 [] 0x100000 patchObject
           fuse := { s.fuse with keyHash := Config.sha384 (List.replicate 97 0) }
           boot := { s.boot with ucode := 7, paOff := 0x100000, paLen := 0x10000, paEnd := 0x100000 } }
def patchReq : Req := ⟨2, .pcie, 0, 0, [0x100000, 0, 344], 77⟩

/-- A lane block whose unscrambled payload is d, behind 58 zeros. -/
def laneBlock (h : BitVec 2) (d : BitVec 64) : LaneBlock := ⟨h, d ^^^ (d <<< 39) ^^^ (d <<< 58), 0⟩

/-- A control block of these 56 bits, with its CRC-8, on n lanes. -/
def onLanes (n d : Nat) : List LaneBlock := List.replicate n (laneBlock 2#2 (BitVec.ofNat 64 (d + crc8 (leBytes 7 d) * 2 ^ 56)))

/-- A flash directory with slot A at 64 KiB and slot B at 128 KiB, and its CRC-32C. -/
@[irreducible] def flashDir : List Byte :=
  [0x50, 0x56, 0x44, 0x31, 1, 0, 4, 0, 0, 0, 1, 0, 0, 0, 1, 0, 0, 0, 2, 0, 0, 0, 1, 0] ++ List.replicate 36 0 ++ [183, 109, 54, 156]

/-- Start steps that lock every PLL, move the clock domains to them and train the first package. -/
def bootSteps : List StartStep :=
  [.pll 0 4000, .pll 1 2400, .pll 2 2000, .pll 3 4267, .pll 4 4267, .pll 5 4267, .pll 6 4267] ++
    (List.range' 2 17).map (fun c => .clksel c 2) ++ [.train 1]

/-- The eight bytes of such a step in a START record. -/
def stepBytes (t : StartStep) : List Byte :=
  match t with
  | .pll n vco => [2, BitVec.ofNat 8 n, 0, 0] ++ leBytes 4 vco
  | .clksel c src => [3, BitVec.ofNat 8 c, BitVec.ofNat 8 src, 0, 0, 0, 0, 0]
  | .train k => [5, BitVec.ofNat 8 k, 0, 0, 0, 0, 0, 0]
  | _ => []

/-- A plaintext: REGS, which enable one package and a region of it, START with those steps, and END. -/
def imageText : List Byte :=
  [1, 0, 0, 0, 24, 0, 0, 0] ++ [(Adr.DMC_G_CFG, 1), (Adr.DMC_G_RGN_SIZE 0, 8), (Adr.DMC_G_RGN_ATTR 0, 7)].flatMap
    (fun x => leBytes 4 x.1 ++ leBytes 4 x.2) ++
  [7, 0, 0, 0, 200, 0, 0, 0] ++ bootSteps.flatMap stepBytes ++ [0xFF, 0xFF, 0, 0, 0, 0, 0, 0]

/-- An image of version 9 with a body as long as that plaintext, and zeros for key, signature, nonce and tag. -/
@[irreducible] def imageBytes : List Byte :=
  [0x50, 0x56, 0x49, 0x4D, 1, 1, 0, 0] ++ leBytes 4 552 ++ leBytes 4 9 ++ leBytes 4 3 ++ List.replicate 268 0 ++ imageText ++
    List.replicate 16 0

/-- A device after reset whose flash holds that directory and that image in slot A, and whose owner's key has 97 zero bytes. -/
@[irreducible] def flashed : State :=
  { State.reset with flash := memWrite 0xFF (memWrite 0xFF [] 0 flashDir) 0x10000 imageBytes
                     fuse := { State.reset.fuse with keyHash := Config.sha384 (List.replicate 97 0) } }

/-- The device after the boot ROM has read the directory l, about to read slot A. -/
def State.slotA (s : State) (l : List Byte) : State :=
  let area (j : Nat) : Nat × Nat := (dirAreas l).getD j (0, 0)
  ((s.setFld Adr.BOOT_FL_INFO 0 16 128).setFld Adr.BOOT_FL_INFO 16 1 (leNat ((l.drop 5).take 1))).modBoot fun x => { x with
    dirCopy := 0, logOff := (area 4).1, logLen := (area 4).2, paOff := (area 2).1, paLen := (area 2).2, paEnd := (area 2).1 }


end Sys2Proof.Machine

open Sys2Proof Sys2Proof.Machine

section

set_option Elab.async false

/-! ### What `Instr.wf` refuses: every check, by a term beyond it -/

theorem test_wf_refuses_boot (te : TrainEnv) : ([
    .ucode 65536 [], .sched 4096 [], .dmem 2 [], .dmem 65536 [], .pll 7 0 false, .clksel 30 0, .clksel 0 3, .startPower 22 0,
    .startPower 0 3, .train 16 te] : List Instr).all (fun i => !i.wf) = true := rfl

theorem test_wf_refuses_sequencer : ([
    .liveOverrun 64, .ldi 1 4194304, .ldhi 1 65536, .add 1 1 1 16384, .sub 1 1 1 16384, .shl 1 1 16384, .shr 1 1 16384,
    .sar 1 1 16384, .cmp 1 1 16384, .ld 1 1 16384 .good, .st 1 1 16384, .rdreg 1 1 16384 0, .wrreg 1 1 16384 0,
    .br .always 65536, .call .always 65536, .evtSet 0xEF, .evtSet 256, .wait 0 0 1 0, .wait 256 0 1 0, .wait 0x16 0 1 0,
    .wait 1 4 1 0, .wait 1 0 0 0, .wait 1 0 65536 0, .waitTimeout 128, .sleep 4 1 0, .sleep 0 0 0, .sleep 0 65536 0,
    .sleepEnd 128, .fenceWr 4 1 0, .fenceWr 0 0 0, .fenceWr 0 65536 0, .fenceRw 4 1 0, .fenceRw 0 0 0, .fenceRw 0 65536 0,
    .fenceHost 4 1 0, .fenceHost 0 0 0, .fenceHost 0 65536 0, .fenceDone 128, .fenceTimeout 128, .fenceEng 1 16384 0,
    .tickno 1 16384, .fctBand 1 1 1 16384, .fctMove 1 1 1 16384, .fctClose 1 1 1 16384, .fctDec 1 1 1 16384,
    .fctAbort 1 1 1 16384, .codPic 1 1 1 16384, .codRow 1 1 1 16384, .outPic 1 1 1 16384, .qMark 1 1 1 16384,
    .qRewind 1 1 1 16384, .qRelease 1 1 1 16384, .qNote 1 1 1 16384, .dmaGo 1 1 1 16384, .bcSend 1 1 1 16384,
    .fltReport 1 1 1 16384, .codAbort 1 1 1 16384, .pwrReq 1 1 1 16384, .csReload 3 0 false false,
    .csReload 0 65536 false false, .scrub 65536 .good] : List Instr).all (fun i => !i.wf) = true := rfl

theorem test_wf_refuses_links : ([
    .signalDetect (.landing 3) 0, .signalDetect (.crossing 4) 0, .cdrLock (.landing 3) 0, .cdrLock (.crossing 4) 0,
    .blockLock (.landing 3) 0, .blockLock (.crossing 4) 0, .eqSearchDone (.landing 3) [], .eqSearchDone (.crossing 4) [],
    .trainingTimeout (.landing 3), .trainingTimeout (.crossing 4), .failedRetrain (.landing 3), .failedRetrain (.crossing 4),
    .eqAdapt (.landing 3) [], .eqAdapt (.crossing 4) [], .lockLoss (.landing 3) 0, .lockLoss (.crossing 4) 0,
    .lockLoss (.landing 0) 8, .dataPosition 3 [], .idle (.landing 3) [], .idle (.crossing 4) [], .deskew (.landing 3) [],
    .deskew (.crossing 4) [], .pictureStart 3 [] 0, .timecode 3 [], .metadata 3 [], .rowStart 3 [], .pictureEnd 3 [],
    .remapAck 3 [], .lostControlBlock (.landing 3) [], .lostControlBlock (.crossing 4) [], .remapRefused 3, .wake 3] : List Instr).all (fun i => !i.wf) = true := rfl

theorem test_wf_refuses_engines (so : SliceOut) (de : DecEnv) : ([
    .rowDecision 5 0, .bandFinal 5, .bandMoved 5, .cbrRowDecision 2 so so 0, .codecPictureDone 2 0 de, .part 4,
    .pictureCloseTimeout 4 0, .bandsDecoded 4, .nalUnit 64 [], .auCloseTimeout 64, .keyRetry 64] : List Instr).all (fun i => !i.wf) = true := rfl

theorem test_wf_refuses_fabric (tk : Taker) (op : DramOp) : ([
    .packetStart 4096 [], .packetStart 0 [15], .enqueue 4096 0 [] false, .enqueue 0 15 [] false, .eop 4096 0 0 .none none false,
    .eop 0 15 0 .none none false, .noticeIssue 4096 0, .noticeTake 4096 tk, .rdataRead 4096 .pcie false, .mark 4096 0,
    .mark 0 15, .producerRewind 4096 0, .consumerRewind 4096 0, .release 4096 0, .qReset 4096 .pcie, .chainWalkDone 4096,
    .headRefill 4096 0 [] false, .allocate 6 [], .free [⟨64, 0, false⟩], .cacheRefill 6, .bpPMinfree .pcie 6,
    .dramRequest 14 0 op 0, .rowBatch 16 [] 0, .writeBatch 16 0, .refresh 16, .mr4Poll 16 0, .mr4Poll 0 3, .powerDownEntry 16,
    .selfRefreshEntry 16, .patrolScrub 16 .good, .wck2dqOsc 16 false, .zqLatch 16, .evacuationDone 16 0,
    .channelRepair 16 false 0, .returnDone 16] : List Instr).all (fun i => !i.wf) = true := rfl

theorem test_wf_refuses_egress (fp : FerryPkt) (tb : TrainBlk) (ef : EthFrame) : ([
    .unitChoice 8 0, .gateWindow 8 0, .gateEntry 8 0, .commit 8 .pcie, .cancel 8 .pcie, .listSwap 8 0, .pkt 4 fp, .ack 4 0,
    .ack 0 65536, .nak 4 0, .nak 0 65536, .replayTmo 4, .credit 4 0 0, .credit 0 64 0, .creditSend 4, .trainBlock 4 tb,
    .ferryTimeout 4, .keyReq 4 0, .keyReq 0 65536, .ethFrame 8 ef, .ethUp 8, .ethDown 8 false false false false,
    .xcvTxFir 4 0 0 .pcie, .xcvTxFir 0 4 0 .pcie] : List Instr).all (fun i => !i.wf) = true := rfl

theorem test_wf_refuses_dma_and_host (dm : DmaEnv) : ([
    .dmaCDb 32 0 .pcie, .dmaCGo 32 0 .pcie, .descriptorRead 32 (List.replicate 16 0), .descriptorRead 0 [],
    .descriptorComplete 32 dm, .hostReadFail 32 false, .dmaCEnClear 32 .pcie, .dmaCRst 32 .pcie, .resume 32 .pcie,
    .requestNop ⟨4, .pcie, 0, 0, [], 0⟩, .fence ⟨4, .pcie, 0, 0, [], 0⟩ false, .streamStart ⟨4, .pcie, 0, 0, [], 0⟩,
    .streamStop ⟨4, .pcie, 0, 0, [], 0⟩, .keyPicture ⟨4, .pcie, 0, 0, [], 0⟩, .setRate ⟨4, .pcie, 0, 0, [], 0⟩,
    .retire ⟨4, .pcie, 0, 0, [], 0⟩, .repair ⟨4, .pcie, 0, 0, [], 0⟩, .retrain ⟨4, .pcie, 0, 0, [], 0⟩,
    .power ⟨4, .pcie, 0, 0, [], 0⟩, .operatingPoint ⟨4, .pcie, 0, 0, [], 0⟩, .setTick ⟨4, .pcie, 0, 0, [], 0⟩,
    .queueReset ⟨4, .pcie, 0, 0, [], 0⟩, .patchSubmit ⟨4, .pcie, 0, 0, [], 0⟩, .restart ⟨4, .pcie, 0, 0, [], 0⟩,
    .faultExport ⟨4, .pcie, 0, 0, [], 0⟩, .faultClear ⟨4, .pcie, 0, 0, [], 0⟩, .seqMail ⟨4, .pcie, 0, 0, [], 0⟩,
    .hstWSeqans 4 0, .seqMailTimeout 4, .icClaim 4 false .pcie, .icComplete 4 false 0 .pcie, .icPendSet 8 0 .pcie,
    .mspiWrite 0 [] 32, .registerWrite .pcie 0 [(16, 0)], .selfTestDone 0 3, .drainEnd 22, .drainTimeout 22, .transDone 22,
    .sensorRead (List.replicate 13 none), .pllUnlock 9, .pllRelock 9, .reservedBlockType (.landing 3) [],
    .reservedBlockType (.crossing 4) [], .fenceRequestTimeout 4, .dmaBusyClear 32] : List Instr).all (fun i => !i.wf) = true := rfl

/-- The ends of the ranges themselves are well formed. -/
theorem test_wf_accepts : ([.ldi 15 (2 ^ 22 - 1), .br .nfail 65535, .evtSet 0xF0, .evtSet 0xFF, .wait 0xD3 3 65535 0,
    .dmem 0xFFFC [], .lockLoss (.crossing 3) 7, .packetStart 4095 [14], .credit 3 63 0, .clksel 29 2,
    .descriptorRead 31 (List.replicate 16 0), .sensorRead (List.replicate 12 none)] : List Instr).all Instr.wf = true := rfl

/-! ### Worked examples of the spec -/

/-- The register block of Facet engine 3 (example after R7). -/
theorem test_facet_block_address : Adr.FCT_STAT 3 = 0x00B00000 := by decide

/-- Bands, segments and the index of a picture of 12,288 × 6,480 photosites (example of the bitstream chapter). -/
theorem test_facet_layout : (⟨12288, 6480, 4⟩ : Lay).nb = 102 ∧ (⟨12288, 6480, 4⟩ : Lay).ns = 48 ∧
    (⟨12288, 6480, 4⟩ : Lay).segs = 4896 ∧ (⟨12288, 6480, 4⟩ : Lay).rowsOf 101 = 1 := by decide

/-- A residual of −7 under A = 100, C = 10 and N = 12 (example after R97). -/
theorem test_residual_code : riceK 12 (100, 10) = 4 ∧ mapq (-7) = 13 ∧
    ricePut 12 4 13 = [true, true, true, false, true] ∧ riceUp (100, 10) 13 = (113, 11) := by decide

/-- The transform block of the bitstream chapter's last example: six bytes, one block, QI = 20, NT[8] = 4. -/
theorem test_transform_block :
    (rowGet ⟨2, 12, 2, 0, [0, 0, 0, 0, 0, 0, 0, 0, 4], false⟩ none 1
      (bytesBits [0x51, 0x4A, 0xDD, 0x09, 0x0E, 0x40])).map (fun r => (r.1.take 2, r.2)) =
    some ([[2050, 2056, 2051, 2056, 2053, 2056, 2056, 2056, 2060, 2056, 2063, 2056, 2065, 2056, 2066, 2056],
      [2056, 2052, 2056, 2052, 2056, 2052, 2056, 2052, 2056, 2052, 2056, 2052, 2056, 2052, 2056, 2052]], [], []) := by
  decide +kernel

/-- The channel and the place of address 0x3_4567_8A80 with 16 channels of two ranks of 32 Gb (example after R267): row 0x68AC,
bank group 3, bank 0, rank 0. -/
theorem test_dram_address :
    let s : State := booted [(Adr.DMC_G_CFG, 0x18F)]
    s.nCh = 16 ∧ s.chanAt 0x345678A80 = 8 ∧ s.localAt 0x345678A80 = 0x34567880 ∧
      s.rowKey 0x34567880 = 0x68AC + 2 ^ 17 * 3 := by decide +kernel

/-- A slice of 2,296 bytes under an MTU of 1,500 leaves in two fragmentation units (example after R344). -/
theorem test_rtp_fragments : (rtpPayloads 1460 (List.replicate 2296 7)).map List.length = [1460, 840] := by decide +kernel

/-- A debt of 1,038 bytes at 200,000 kbit/s, and the slot of the wheel that serves it (example after R310). -/
theorem test_shaper_debt : repay (1038 * 65536) 200000 = 41520 ∧ slotAt 0 41520 = 163 * 256 ∧
    slotAt 20224 (20000 + repay (538 * 65536) 100000) = 247 * 256 := by decide

/-! ### Small steps -/

/-- An access to GLB_ID answers the device's identity (R3), from power-on on. -/
theorem test_read_id : State.reset.gate false Adr.GLB_ID = Code.done ∧ State.reset.reg Adr.GLB_ID = 0x7A509B01 := by
  decide +kernel

/-- ADD wraps modulo 2³² (R204). -/
theorem test_add_wraps :
    let s : State := (booted []).runs3 (slist [0, 0xFFFFFFFF, 2]) ((encodeMicro (.add 1 2 3 5)).getD 0)
    ((after (.add 1 2 3 5) s).sl 3).g.getD 1 9 = 6 ∧ ((after (.add 1 2 3 5) s).sl 3).pc = 17 := by decide +kernel

/-- IMM14 is signed: 0x3FFF is −1 (R204). -/
theorem test_sub_signed :
    let s : State := (booted []).runs3 (slist [0, 7, 2]) ((encodeMicro (.sub 1 2 3 0x3FFF)).getD 0)
    ((after (.sub 1 2 3 0x3FFF) s).sl 3).g.getD 1 9 = 6 := by decide +kernel

/-- SAR copies the sign and SHR does not (R204). -/
theorem test_shifts :
    let x : SList := slist [0, 0x80000010]
    let s : State := (booted []).runs3 x ((encodeMicro (.sar 1 2 4)).getD 0)
    let r : State := (booted []).runs3 x ((encodeMicro (.shr 1 2 4)).getD 0)
    ((after (.sar 1 2 4) s).sl 3).g.getD 1 9 = 0xF8000001 ∧ ((after (.shr 1 2 4) r).sl 3).g.getD 1 9 = 0x08000001 := by
  decide +kernel

/-- CMP of 2 with 3: not zero, negative, and a borrow (R202). -/
theorem test_cmp_flags :
    let s : State := (booted []).runs3 (slist [0, 2, 3]) ((encodeMicro (.cmp 2 3 0)).getD 0)
    let x := (after (.cmp 2 3 0) s).sl 3
    (x.z, x.n, x.c) = (false, true, true) := by decide +kernel

/-- A write with a byte not enabled leaves the register and is recorded (R12). -/
theorem test_write_bytes :
    let s : State := booted [(Adr.LND_EQ_CTL 0, 0x201)]
    (after (.registerWrite .pcie (Adr.LND_EQ_CTL 0) [(7, 0x303)]) s).reg (Adr.LND_EQ_CTL 0) = 0x201 ∧
      (after (.registerWrite .pcie (Adr.LND_EQ_CTL 0) [(15, 0x303)]) s).reg (Adr.LND_EQ_CTL 0) = 0x303 := by decide +kernel

/-! ### Witnesses: for each clause of a statement, in its order, a state and operands that meet its hypotheses -/

theorem witness_AluWords :
  (let s : State := (booted []).runs3 (slist [7, 0x80000001, 9]) ((encodeMicro (.nop)).getD 0)
   Runs s 3 (.nop) ∧ s.calm = true) ∧
  (let s : State := (booted []).runs3 (slist [7, 0x80000001, 9]) ((encodeMicro (.ldi 1 5)).getD 0)
   Runs s 3 (.ldi 1 5) ∧ s.calm = true) ∧
  (let s : State := (booted []).runs3 (slist [7, 0x80000001, 9]) ((encodeMicro (.ldhi 1 5)).getD 0)
   Runs s 3 (.ldhi 1 5) ∧ s.calm = true) ∧
  (let s : State := (booted []).runs3 (slist [7, 0x80000001, 9]) ((encodeMicro (.add 1 2 3 5)).getD 0)
   Runs s 3 (.add 1 2 3 5) ∧ s.calm = true) ∧
  (let s : State := (booted []).runs3 (slist [7, 0x80000001, 9]) ((encodeMicro (.sub 1 2 3 5)).getD 0)
   Runs s 3 (.sub 1 2 3 5) ∧ s.calm = true) ∧
  (let s : State := (booted []).runs3 (slist [7, 0x80000001, 9]) ((encodeMicro (.and 1 2 3)).getD 0)
   Runs s 3 (.and 1 2 3) ∧ s.calm = true) ∧
  (let s : State := (booted []).runs3 (slist [7, 0x80000001, 9]) ((encodeMicro (.or 1 2 3)).getD 0)
   Runs s 3 (.or 1 2 3) ∧ s.calm = true) ∧
  (let s : State := (booted []).runs3 (slist [7, 0x80000001, 9]) ((encodeMicro (.xor 1 2 3)).getD 0)
   Runs s 3 (.xor 1 2 3) ∧ s.calm = true) ∧
  (let s : State := (booted []).runs3 (slist [7, 0x80000001, 9]) ((encodeMicro (.shl 1 2 5)).getD 0)
   Runs s 3 (.shl 1 2 5) ∧ s.calm = true) ∧
  (let s : State := (booted []).runs3 (slist [7, 0x80000001, 9]) ((encodeMicro (.shr 1 2 5)).getD 0)
   Runs s 3 (.shr 1 2 5) ∧ s.calm = true) ∧
  (let s : State := (booted []).runs3 (slist [7, 0x80000001, 9]) ((encodeMicro (.sar 1 2 5)).getD 0)
   Runs s 3 (.sar 1 2 5) ∧ s.calm = true) ∧
  (let s : State := (booted []).runs3 (slist [7, 0x80000001, 9]) ((encodeMicro (.cmp 2 3 5)).getD 0)
   Runs s 3 (.cmp 2 3 5) ∧ s.calm = true) :=
  by refine ⟨?_, ?_, ?_, ?_, ?_, ?_, ?_, ?_, ?_, ?_, ?_, ?_⟩ <;> decide +kernel

theorem witness_FlowWords :
  (let s : State := (booted []).runs3 { slist [7] with z := true } ((encodeMicro (.br .z 0x1234)).getD 0)
   Runs s 3 (.br .z 0x1234) ∧ s.calm = true) ∧
  (let s : State := (booted []).runs3 { slist [7] with z := false } ((encodeMicro (.br .z 0x1234)).getD 0)
   Runs s 3 (.br .z 0x1234) ∧ s.calm = true) ∧
  (let s : State := (booted []).runs3 { slist [7] with z := true } ((encodeMicro (.call .z 0x1234)).getD 0)
   Runs s 3 (.call .z 0x1234) ∧ s.calm = true) ∧
  (let s : State := (booted []).runs3 { slist [7] with z := false } ((encodeMicro (.call .z 0x1234)).getD 0)
   Runs s 3 (.call .z 0x1234) ∧ s.calm = true) ∧
  (let s : State := (booted []).runs3 { slist [7] with z := true, stack := [1,2,3,4,5,6,7] } ((encodeMicro (.call .z 5)).getD 0)
   Runs s 3 (.call .z 5) ∧ s.calm = true) ∧
  (let s : State := (booted []).runs3 { slist [7] with stack := [7,8] } ((encodeMicro .ret).getD 0)
   Runs s 3 .ret ∧ s.calm = true ∧ (s.sl 3).stack = 7 :: [8]) :=
  ⟨by decide +kernel, by decide +kernel, by decide +kernel, by decide +kernel, by decide +kernel, by decide +kernel⟩

theorem witness_DataWords :
  (let s : State := (booted [(Adr.SEQ_DMEM 4, 77)]).runs3 (slist [7, 8, 9]) ((encodeMicro (.ld 1 2 8 .good)).getD 0)
   Runs s 3 (.ld 1 2 8 .good) ∧ s.calm = true) ∧
  (let s : State := (booted [(Adr.SEQ_DMEM 4, 77)]).runs3 (slist [7, 8, 9]) ((encodeMicro (.st 2 3 8)).getD 0)
   Runs s 3 (.st 2 3 8) ∧ s.calm = true) ∧
  (let s : State := (booted [(Adr.SEQ_DMEM 4, 77)]).runs3 (slist [7, 8, 9]) ((encodeMicro (.budget 1)).getD 0)
   Runs s 3 (.budget 1) ∧ s.calm = true) ∧
  (let s : State := (booted [(Adr.SEQ_DMEM 4, 77)]).runs3 (slist [7, 8, 9]) ((encodeMicro (.tickno 1 8)).getD 0)
   Runs s 3 (.tickno 1 8) ∧ s.calm = true) ∧
  (let s : State := (booted [(Adr.SEQ_DMEM 4, 77)]).runs3 (slist [7, 8, 9]) ((encodeMicro (.evtSet 0xF0)).getD 0)
   Runs s 3 (.evtSet 0xF0) ∧ s.calm = true) :=
  ⟨by decide +kernel, by decide +kernel, by decide +kernel, by decide +kernel, by decide +kernel⟩

theorem witness_RegisterWords :
  (let s : State := (booted [(Adr.SEQ_DMEM 4, 77)]).runs3 (slist [7, BitVec.ofNat 32 (Adr.SEQ_DMEM 0), 9]) ((encodeMicro (.rdreg 1 2
     4 0)).getD 0)
   let a := regAddr ((s.sl 3).gr 2) 4
   Runs s 3 (.rdreg 1 2 4 0) ∧ s.calm = true ∧ 0xA0000 ≤ a ∧ a < 0x100000 ∧ s.gate false a = Code.done) ∧
  (let s : State := (booted [(Adr.SEQ_DMEM 4, 77)]).runs3 (slist [7, BitVec.ofNat 32 (Adr.SEQ_DMEM 0), 9]) ((encodeMicro (.wrreg 2 3
     4 0)).getD 0)
   let a := regAddr ((s.sl 3).gr 2) 4
   Runs s 3 (.wrreg 2 3 4 0) ∧ s.calm = true ∧ 0xA0000 ≤ a ∧ a < 0xB0000 ∧ s.gate false a = Code.done) :=
  ⟨by decide +kernel, by decide +kernel⟩

theorem witness_SuspendWords :
  (let s : State := (booted []).runs3 (slist [7, 8, 9]) ((encodeMicro (.wait 5 1 8 0)).getD 0)
   Runs s 3 (.wait 5 1 8 0) ∧ s.runFits 3 1) ∧
  (let s : State := (booted []).runs3 (slist [7, 8, 9]) ((encodeMicro (.sleep 1 8 0)).getD 0)
   Runs s 3 (.sleep 1 8 0) ∧ s.runFits 3 1) ∧
  (let s : State := (booted []).runs3 (slist [7, 8, 9]) ((encodeMicro (.fenceWr 1 8 0)).getD 0)
   Runs s 3 (.fenceWr 1 8 0) ∧ s.runFits 3 1) ∧
  (let s : State := (booted []).runs3 (slist [7, 8, 9]) ((encodeMicro (.fenceRw 1 8 0)).getD 0)
   Runs s 3 (.fenceRw 1 8 0) ∧ s.runFits 3 1) ∧
  (let s : State := (booted []).runs3 (slist [7, 8, 9]) ((encodeMicro (.fenceHost 1 8 0)).getD 0)
   Runs s 3 (.fenceHost 1 8 0) ∧ s.runFits 3 1) ∧
  (let s : State := (booted []).runs3 (slist [7]) ((encodeMicro (.fenceEng 1 127 0)).getD 0)
   Runs s 3 (.fenceEng 1 127 0) ∧ s.fenceIdle (BitVec.ofNat 32 127) = true) ∧
  (let s : State := { ((booted []).runs3 (slist [7]) ((encodeMicro (.fenceEng 1 127 0)).getD 0)).setEng 0 { FEngine.fresh with
     work := some ⟨0, 0, 0, 0, [], 0, [], [], [], false⟩ } with
     rd := [] }
   Runs s 3 (.fenceEng 1 127 0) ∧ s.fenceIdle (BitVec.ofNat 32 127) = false) :=
  by refine ⟨?_, ?_, ?_, ?_, ?_, ?_, ?_⟩ <;> decide +kernel

theorem witness_WaitEnds :
  (let s : State := { booted [] with
     seq := { Sequencer.fresh with lists := [(3, { SList.fresh with st := 3, susp := some (.event 5, .at_ 0) })] } }
   (s.sl 3).st = 3 ∧ (s.sl 3).susp = some (.event 5, .at_ 0) ∧ s.passed (.at_ 0) = true ∧ s.seq.cur = none ∧ tget 0 s.evts 5 = 0) ∧
  (let s : State := { booted [] with
     seq := { Sequencer.fresh with lists := [(3, { SList.fresh with st := 3, susp := some (.sleep, .at_ 0) })] } }
   (s.sl 3).st = 3 ∧ (s.sl 3).susp = some (.sleep, .at_ 0) ∧ s.passed (.at_ 0) = true ∧ s.seq.cur = none ∧ tget 0 s.evts 5 = 0) ∧
  (let s : State := { booted [] with
     seq := { Sequencer.fresh with lists := [(3, { SList.fresh with st := 3, susp := some (.fence 1, .at_ 0) })] } }
   (s.sl 3).st = 3 ∧ (s.sl 3).susp = some (.fence 1, .at_ 0) ∧ s.passed (.at_ 0) = true ∧ s.seq.cur = none ∧ tget 0 s.evts 5 = 0) ∧
  (let s : State := { booted [] with
     seq := { Sequencer.fresh with lists := [(3, { SList.fresh with st := 3, susp := some (.fence 3, .at_ 0) })] } }
   (s.sl 3).st = 3 ∧ (s.sl 3).susp = some (.fence 3, .at_ 0) ∧ s.passed (.at_ 0) = true ∧ s.seq.cur = none ∧ tget 0 s.evts 5 = 0) :=
  ⟨by decide +kernel, by decide +kernel, by decide +kernel, by decide +kernel⟩

theorem witness_EndWords :
  (let s : State := (booted [(Adr.SEQ_L_STEPS 3,131072)]).runs3 (slist [7]) ((encodeMicro .stepEnd).getD 0)
   Runs s 3 .stepEnd ∧ s.runFits 3 1 ∧ (s.sl 3).abort = false ∧ (s.sl 3).step < s.listLast 3 ∧ s.stepTrig 1 = 0) ∧
  (let s : State := (booted [(Adr.SEQ_L_STEPS 3,0)]).runs3 (slist [7]) ((encodeMicro .stepEnd).getD 0)
   Runs s 3 .stepEnd ∧ s.runFits 3 1 ∧ (s.sl 3).abort = false ∧ s.listLast 3 ≤ (s.sl 3).step ∧ (s.sl 3).owed = 0) ∧
  (let s : State := (booted []).runs3 (slist [7]) ((encodeMicro .tickEnd).getD 0)
   Runs s 3 .tickEnd ∧ s.runFits 3 1 ∧ (s.sl 3).abort = false ∧ (s.sl 3).owed = 0) ∧
  (let s : State := (booted [(Adr.SEQ_L_CTL 3,196617)]).runs3 (slist [7]) ((encodeMicro .halt).getD 0)
   Runs s 3 .halt ∧ s.runFits 3 1 ∧ (s.sl 3).abort = false ∧ s.listKind 3 = 3) ∧
  (let s : State := (booted [(Adr.SEQ_L_CTL 3,9),(Adr.SEQ_L_CTL 4,9),(Adr.SEQ_L_CTL 5,262153)]).runs3 (slist [7]) ((encodeMicro
     .halt).getD 0)
   Runs s 3 .halt ∧ s.runFits 3 1 ∧ (s.sl 3).abort = false ∧ s.listKind 3 ≠ 3) ∧
  (let s : State := (booted []).runs3 (slist [7]) 0x3C000000
   s.seq.cur = some 3 ∧ s.runFits 3 0 ∧ s.wordAt 3 = none) :=
  ⟨by decide +kernel, by decide +kernel, by decide +kernel, by decide +kernel, by decide +kernel, by decide +kernel⟩

theorem witness_QueueWords :
  (let s : State := ((booted [(Adr.QF_Q_CFG 9, 3),(Adr.QF_Q_STORE 9, 2)]).setQueue 9 { Queue.fresh with tail := 96 }).runs3 (slist
     [7, 9, 64]) ((encodeMicro (.qMark 1 2 3 0)).getD 0)
   Runs s 3 (.qMark 1 2 3 0) ∧ s.domRuns 2 = true ∧ s.qRefuse 9 = none) ∧
  (let s : State := ((booted [(Adr.QF_Q_CFG 9, 3),(Adr.QF_Q_STORE 9, 2)]).setQueue 9 { Queue.fresh with tail := 96 }).runs3 (slist
     [7, 9, 64]) ((encodeMicro (.qMark 1 2 3 1)).getD 0)
   Runs s 3 (.qMark 1 2 3 1) ∧ s.domRuns 2 = true ∧ s.qRefuse 9 = none) ∧
  (let s : State := ((booted [(Adr.QF_Q_CFG 9, 3),(Adr.QF_Q_STORE 9, 2)]).setQueue 9 { Queue.fresh with
     tail := 96, read := 0, words := List.replicate 3 (mkWord [1] false), headEnd := 3, midEnd := 3 }).runs3 (slist [7, 9, 32])
     ((encodeMicro (.qRewind 1 2 3 1)).getD 0)
   Runs s 3 (.qRewind 1 2 3 1) ∧ s.domRuns 2 = true ∧ s.qRefuse 9 = none ∧ (s.queue 9).posOf 32 1 = some 32 ∧ (s.queue 9).resting =
     true ∧ (s.queue 9).pkts = [] ∧ (s.queue 9).rel ≤ 32 ∧ 32 ≤ (s.queue 9).tail) ∧
  (let s : State := ((booted [(Adr.QF_Q_CFG 9, 3),(Adr.QF_Q_STORE 9, 2)]).setQueue 9 { Queue.fresh with
     tail := 96, read := 64, words := List.replicate 3 (mkWord [1] false), headEnd := 3, midEnd := 3 }).runs3 (slist [7, 9, 64])
     ((encodeMicro (.qRelease 1 2 3 0)).getD 0)
   Runs s 3 (.qRelease 1 2 3 0) ∧ s.domRuns 2 = true ∧ s.qRefuse 9 = none ∧ (s.queue 9).posOf 64 0 = some 64 ∧ (s.queue 9).resting =
     true ∧ 64 ≤ (s.queue 9).read) ∧
  (let s : State := (booted [(Adr.QF_Q_CFG 9, 3),(Adr.QF_Q_STORE 9, 2)]).runs3 (slist [7, 9, 64]) ((encodeMicro (.qNote 1 2 3
     0)).getD 0)
   Runs s 3 (.qNote 1 2 3 0) ∧ s.domRuns 2 = true ∧ s.qRefuse 9 = none ∧ (s.queue 9).resting = true ∧ (s.queue 9).pkts = [] ∧
     (s.queue 9).tail % 32 = 0 ∧ s.qLimit 9 = 0 ∧ (s.queue 9).words.length < s.qHead 9 ∧ s.qNoSpill 9 = true) :=
  ⟨by decide +kernel, by decide +kernel, by decide +kernel, by decide +kernel, by decide +kernel⟩

theorem witness_FacetWords :
  (let s : State := (((booted [(Adr.FCT_S_CTL 0, 5),(Adr.LND_GEOM 0, 256 + 65536 * 64),(Adr.LND_FMT 0, 0),(Adr.FCT_S_RQ 0,
     9),(Adr.QF_Q_CFG 9, 3),(Adr.QF_Q_STORE 9, 2),(Adr.QF_Q_CFG 16, 3),(Adr.QF_Q_STORE 16, 2),(Adr.FCT_LQ_BASE 0, 16)]).setFs 0 {
       FStream.fresh with
     accepted := 1, pics := [(⟨0, 0, 1, 5, 0, false, false, none, [], [], 0, 8, [], [(0, { Band.empty with st := .complete })],
       false, false, 0, false, 0, false, 0, 0, [], []⟩ : FPic)] }).setEng 0 { FEngine.fresh with
     st := 2, work := some ⟨0, 0, 1, 0, List.replicate 8 8, 20, [], [], List.replicate 8 0, false⟩ }).runs3 (slist [7, 0, 0])
     ((encodeMicro (.fctBand 1 2 3 1)).getD 0)
   let p : FPic := ⟨0, 0, 1, 5, 0, false, false, none, [], [], 0, 8, [], [(0, { Band.empty with st := .complete })], false, false,
     0, false, 0, false, 0, 0, [], []⟩
   Runs s 3 (.fctBand 1 2 3 1) ∧ s.picOf 0 = some p ∧ s.pic? 0 0 = some p ∧ 0 < (s.lay 0).nb ∧ (if 1 % 2 = 1 then s.autoSlot p 0
     else some (1 / 2 % 8)) = some 0 ∧ 0 < s.active ∧ s.fct.slots.getD 0 7 = 0 ∧ s.isRetired 0 = false ∧ (p.band 0).st = .complete ∧
     s.domRuns 3 = true ∧ (s.eng 0).work.isSome = true) ∧
  (let s : State := (((booted [(Adr.FCT_S_CTL 0, 5),(Adr.LND_GEOM 0, 256 + 65536 * 64),(Adr.LND_FMT 0, 0),(Adr.FCT_S_RQ 0,
     9),(Adr.QF_Q_CFG 9, 3),(Adr.QF_Q_STORE 9, 2),(Adr.QF_Q_CFG 16, 3),(Adr.QF_Q_STORE 16, 2),(Adr.FCT_LQ_BASE 0, 16)]).setFs 0 {
       FStream.fresh with
     accepted := 1, pics := [(⟨0, 0, 1, 5, 0, false, false, none, [], [], 0, 8, [], [(0, { Band.empty with st := .complete })],
       false, false, 0, false, 0, false, 0, 0, [], []⟩ : FPic)] }).setEng 0 { FEngine.fresh with
     st := 2, work := some ⟨0, 0, 1, 0, List.replicate 8 8, 20, [], [], List.replicate 8 0, false⟩ }).runs3 (slist [7, 0, 0])
     ((encodeMicro (.fctBand 1 2 3 0)).getD 0)
   let p : FPic := ⟨0, 0, 1, 5, 0, false, false, none, [], [], 0, 8, [], [(0, { Band.empty with st := .complete })], false, false,
     0, false, 0, false, 0, 0, [], []⟩
   Runs s 3 (.fctBand 1 2 3 0) ∧ s.picOf 0 = some p ∧ s.pic? 0 0 = some p ∧ 0 < (s.lay 0).nb ∧ (if 0 % 2 = 1 then s.autoSlot p 0
     else some (0 / 2 % 8)) = some 0 ∧ 0 < s.active ∧ s.fct.slots.getD 0 7 = 0 ∧ s.isRetired 0 = false ∧ (p.band 0).st = .complete ∧
     s.domRuns 3 = true ∧ (s.eng 0).work.isSome = true) ∧
  (let s : State := ((booted [(Adr.FCT_S_CTL 0, 5),(Adr.LND_GEOM 0, 256 + 65536 * 64),(Adr.LND_FMT 0, 0),(Adr.FCT_S_RQ 0,
     9),(Adr.QF_Q_CFG 9, 3),(Adr.QF_Q_STORE 9, 2),(Adr.QF_Q_CFG 16, 3),(Adr.QF_Q_STORE 16, 2),(Adr.FCT_LQ_BASE 0, 16)]).setFs 0 {
       FStream.fresh with
     accepted := 1, pics := [(⟨0, 0, 1, 5, 0, false, false, none, [], [], 0, 8, [], [(0, { Band.empty with st := .final })], false,
       false, 0, false, 0, false, 0, 0, [], []⟩ : FPic)] }).runs3 (slist [7, 0, 0]) ((encodeMicro (.fctMove 1 2 3 1)).getD 0)
   let p : FPic := ⟨0, 0, 1, 5, 0, false, false, none, [], [], 0, 8, [], [(0, { Band.empty with st := .final })], false, false, 0,
     false, 0, false, 0, 0, [], []⟩
   Runs s 3 (.fctMove 1 2 3 1) ∧ s.picOf 0 = some p ∧ s.pic? 0 0 = some p ∧ 0 < (s.lay 0).nb ∧ p.nextMove = 0 ∧ (p.band 0).st =
     .final) ∧
  (let s : State := ((booted [(Adr.FCT_S_CTL 0, 5),(Adr.LND_GEOM 0, 256 + 65536 * 64),(Adr.LND_FMT 0, 0),(Adr.FCT_S_RQ 0,
     9),(Adr.QF_Q_CFG 9, 3),(Adr.QF_Q_STORE 9, 2),(Adr.QF_Q_CFG 16, 3),(Adr.QF_Q_STORE 16, 2),(Adr.FCT_LQ_BASE 0, 16)]).setFs 0 {
       FStream.fresh with
     accepted := 1, pics := [(⟨0, 0, 1, 5, 0, false, false, none, [], [], 0, 8, [], (List.range 4).map fun n => (n, { Band.empty
       with
     st := .moved }), false, false, 0, false, 4, false, 0, 0, [], []⟩ : FPic)] }).runs3 (slist [7, 0, 0]) ((encodeMicro (.fctClose 1
     2 3 1)).getD 0)
   let p : FPic := ⟨0, 0, 1, 5, 0, false, false, none, [], [], 0, 8, [], (List.range 4).map fun n => (n, { Band.empty with
     st := .moved }), false, false, 0, false, 4, false, 0, 0, [], []⟩
   Runs s 3 (.fctClose 1 2 3 1) ∧ s.picOf 0 = some p ∧ p.nextMove = (s.lay 0).nb ∧ s.noQueue (s.fld (Adr.FCT_S_RQ 0) 0 12) = false) ∧
  (let s : State := ((booted [(Adr.FCT_P_CTL 0, 1)]).setPs 0 { PStream.fresh with
     opened := 1, stg := [(⟨0, 5, 0, [], [], 0, true, some 0, []⟩ : Stg)] }).runs3 (slist [7, 0, 0]) ((encodeMicro (.fctDec 1 2 3
     1)).getD 0)
   let g := (⟨0, 5, 0, [], [], 0, true, some 0, []⟩ : Stg)
   Runs s 3 (.fctDec 1 2 3 1) ∧ s.pEn 0 = true ∧ s.stgOf 0 = some g ∧ 0 < s.stgBands 0 g ∧ s.active ≠ 0 ∧ g.bands.contains 0 = false
     ∧ g.out = some 0 ∧ s.fct.slots.getD (0 % s.active) 7 = 0 ∧ s.isRetired 0 = false ∧ s.domRuns 3 = true) ∧
  (let s : State := (((booted [(Adr.FCT_S_CTL 0, 5),(Adr.LND_GEOM 0, 256 + 65536 * 64),(Adr.LND_FMT 0, 0),(Adr.FCT_S_RQ 0,
     9),(Adr.QF_Q_CFG 9, 3),(Adr.QF_Q_STORE 9, 2),(Adr.QF_Q_CFG 16, 3),(Adr.QF_Q_STORE 16, 2),(Adr.FCT_LQ_BASE 0, 16)]).setFs 0 {
       FStream.fresh with
     accepted := 1, pics := [(⟨0, 0, 1, 5, 0, false, false, none, [], [], 0, 8, [], [(1, { Band.empty with st := .coding })], false,
       false, 0, false, 0, false, 0, 0, [], []⟩ : FPic)] }).setEng 0 { FEngine.fresh with
     st := 2, work := some ⟨0, 0, 1, 0, List.replicate 8 8, 20, [], [], List.replicate 8 0, false⟩ }).runs3 (slist [7, 0, 0])
     ((encodeMicro (.fctAbort 1 2 3 1)).getD 0)
   let w : FWork := ⟨0, 0, 1, 0, List.replicate 8 8, 20, [], [], List.replicate 8 0, false⟩
   Runs s 3 (.fctAbort 1 2 3 1) ∧ 0 < s.nFct ∧ s.domRuns 3 = true ∧ (s.eng 0).work = some w ∧ (s.eng 0).queue = []) :=
  ⟨by decide +kernel, by decide +kernel, by decide +kernel, by decide +kernel, by decide +kernel, by decide +kernel⟩

theorem witness_CodecWords :
  (let s : State := (booted [(Adr.COD_C_CTL 0, 1),(Adr.COD_C_GEOM 0, 256 + 65536 * 64),(Adr.COD_C_IO 0, 9),(Adr.QF_Q_CFG 9,
     3),(Adr.QF_Q_STORE 9, 2)]).runs3 (slist [7, 0, 0]) ((encodeMicro (.codPic 1 2 3 2)).getD 0)
   Runs s 3 (.codPic 1 2 3 2) ∧ s.cDec 0 = false ∧ s.cRefuse 0 = none) ∧
  (let s : State := ((booted [(Adr.COD_C_CTL 0, 1 + 8),(Adr.COD_C_GEOM 0, 256 + 65536 * 64),(Adr.COD_C_IO 0, 9),(Adr.QF_Q_CFG 9,
     3),(Adr.QF_Q_STORE 9, 2)]).setLg 0 { LGroup.fresh with fbLast := some (0, 0, none) }).runs3 (slist [7, 0, 0]) ((encodeMicro
     (.codPic 1 2 3 0)).getD 0)
   Runs s 3 (.codPic 1 2 3 0) ∧ s.cDec 0 = false ∧ s.cRefuse 0 = none ∧ s.cHasSource 0 = true ∧ s.cNoSource 0 = false) ∧
  (let s : State := (booted [(Adr.COD_C_CTL 0, 1),(Adr.COD_C_GEOM 0, 256 + 65536 * 256),(Adr.COD_C_IO 0, 9),(Adr.QF_Q_CFG 9,
     3),(Adr.QF_Q_STORE 9, 2)]).runs3 (slist [7, 0, 3]) ((encodeMicro (.codRow 1 2 3 0)).getD 0)
   Runs s 3 (.codRow 1 2 3 0) ∧ s.cRefuse 0 = none ∧ s.cClass 0 = 0 ∧ s.cDec 0 = false ∧ 3 < s.cRows 0) ∧
  (let s : State := ((booted [(Adr.COD_C_CTL 0, 1),(Adr.COD_C_GEOM 0, 256 + 65536 * 256),(Adr.COD_C_IO 0, 9),(Adr.QF_Q_CFG 9,
     3),(Adr.QF_Q_STORE 9, 2)]).setCx 0 { Ctx.fresh with
     rows := 4, work := [(0, (⟨⟨⟨0, none, 0, 0, true, false, none, false, 0, ⟨0, 0, 0, 0⟩, 0⟩, 0, 0, true⟩, 1000, 1, 10, [30], 30,
       0, 0, 0, [], [], [], 0, [], [], [], [], ⟨true, false, 0, 0, none, 0, none, false, 0, 8⟩⟩ : CWork))] }).runs3 (slist [7, 0,
     3]) ((encodeMicro (.codRow 1 2 3 0)).getD 0)
   Runs s 3 (.codRow 1 2 3 0) ∧ s.cRefuse 0 = none ∧ s.cClass 0 = 0 ∧ s.cDec 0 = false ∧ 3 < s.cRows 0 ∧ (s.cx 0).work ≠ [] ∧
     s.cRows 0 ≤ (s.cx 0).rows) ∧
  (let s : State := ((booted [(Adr.COD_C_CTL 0, 1),(Adr.COD_C_GEOM 0, 256 + 65536 * 64),(Adr.COD_C_IO 0, 9),(Adr.QF_Q_CFG 9,
     3),(Adr.QF_Q_STORE 9, 2)]).setCx 0 { Ctx.fresh with
     work := [(0, (⟨⟨⟨0, none, 0, 0, true, false, none, false, 0, ⟨0, 0, 0, 0⟩, 0⟩, 0, 0, true⟩, 1000, 1, 10, [30], 30, 0, 0, 0, [],
       [], [], 0, [], [], [], [], ⟨true, false, 0, 0, none, 0, none, false, 0, 8⟩⟩ : CWork))] }).runs3 (slist [7, 0, 3])
     ((encodeMicro (.codAbort 1 2 3 0)).getD 0)
   Runs s 3 (.codAbort 1 2 3 0) ∧ s.cEn 0 = true ∧ (s.cx 0).work ≠ []) ∧
  (let s : State := ((booted [(Adr.COD_C_CTL 0, 3),(Adr.COD_C_GEOM 0, 256 + 65536 * 64),(Adr.COD_C_IO 0, 9),(Adr.QF_Q_CFG 9,
     3),(Adr.QF_Q_STORE 9, 2)]).setCx 0 { Ctx.fresh with
     work := [(0, (⟨⟨⟨0, none, 0, 0, true, false, none, false, 0, ⟨0, 0, 0, 0⟩, 0⟩, 0, 0, true⟩, 1000, 1, 10, [30], 30, 0, 0, 0, [],
       [], [], 0, [], [], [], [], ⟨true, false, 0, 0, none, 0, none, false, 0, 8⟩⟩ : CWork))] }).runs3 (slist [7, 0, 3])
     ((encodeMicro (.codAbort 1 2 3 0)).getD 0)
   Runs s 3 (.codAbort 1 2 3 0) ∧ s.cEn 0 = true ∧ (s.cx 0).work ≠ []) ∧
  (let s : State := ((booted [(Adr.FCT_P_CTL 0, 1)]).setPs 0 { PStream.fresh with
     ticks := 3, ring := ⟨[(⟨0, 8, 0, 2, 2, 0, 3, 0, 8, 0, [], 0, 0, [], 0, 0, []⟩ : OutPic)], none, 2, []⟩ }).runs3 (slist [7, 0,
     3]) ((encodeMicro (.outPic 1 2 3 0)).getD 0)
   let o := (⟨0, 8, 0, 2, 2, 0, 3, 0, 8, 0, [], 0, 0, [], 0, 0, []⟩ : OutPic)
   Runs s 3 (.outPic 1 2 3 0) ∧ s.pEn 0 = true ∧ (s.ring ⟨false, 0⟩).list = [o] ∧ (s.ring ⟨false, 0⟩).at_ < s.outTicks ⟨false, 0⟩) ∧
  (let s : State := ((booted [(Adr.COD_C_CTL 0, 3)]).setCx 0 { Ctx.fresh with
     ticks := 3, ring := ⟨[(⟨0, 8, 0, 2, 2, 0, 3, 0, 8, 0, [], 0, 0, [], 0, 0, []⟩ : OutPic), (⟨0, 8, 0, 2, 2, 0, 3, 0, 8, 0, [], 0,
       0, [], 0, 0, []⟩ : OutPic)], some (⟨0, 8, 0, 2, 2, 0, 3, 0, 8, 0, [], 0, 0, [], 0, 0, []⟩ : OutPic), 2, []⟩ }).runs3 (slist
     [7, 64, 3]) ((encodeMicro (.outPic 1 2 3 0)).getD 0)
   let o := (⟨0, 8, 0, 2, 2, 0, 3, 0, 8, 0, [], 0, 0, [], 0, 0, []⟩ : OutPic)
   Runs s 3 (.outPic 1 2 3 0) ∧ s.cEn 0 = true ∧ s.cDec 0 = true ∧ (s.ring ⟨true, 0⟩).list = o :: [o] ∧ (s.ring ⟨true, 0⟩).at_ <
     s.outTicks ⟨true, 0⟩) :=
  by refine ⟨?_, ?_, ?_, ?_, ?_, ?_, ?_, ?_⟩ <;> decide +kernel

theorem witness_DeviceWords :
  (let s : State := (booted [(Adr.DMA_C_CFG 0, 4),(Adr.DMA_C_RING_CFG 0, 3)]).runs3 (slist [7, 0, 8]) ((encodeMicro (.dmaGo 1 2 3
     0)).getD 0)
   Runs s 3 (.dmaGo 1 2 3 0) ∧ s.domRuns 2 = true ∧ 0 < s.nDma ∧ s.dmaSeq 0 = true ∧ s.fuse.m = false ∧ (8 % 65536 + 65536 - (s.dch_
     0).head) % 65536 ≤ 2 ^ s.fld (Adr.DMA_C_RING_CFG 0) 0 4) ∧
  (let s : State := { ((booted [(Adr.DMA_C_CFG 0, 4)]).runs3 (slist [7, 0, 0]) ((encodeMicro (.dmaGo 1 2 3 0)).getD 0)).setDma 0 {
       DmaChan.fresh with
     cur := some [] } with
     fuse := { Fuse.std with m := true } }
   Runs s 3 (.dmaGo 1 2 3 0) ∧ s.domRuns 2 = true ∧ 0 < s.nDma ∧ s.dmaSeq 0 = true ∧ s.fuse.m = true ∧ (s.dch_ 0).shd = false ∧
     (s.dch_ 0).cur.isSome = true) ∧
  (let s : State := ((booted [(Adr.LND_BC_CTL 0, 1 + 2 * 1),(Adr.XCV_CTL 1, 1)]).setXg 1 { XGroup.fresh with
     st := 6, ctl := List.replicate 15 [] }).runs3 (slist [7, 0, 500]) ((encodeMicro (.bcSend 1 2 3 4)).getD 0)
   Runs s 3 (.bcSend 1 2 3 4) ∧ 0 < s.nLnd ∧ s.domRuns 14 = true ∧ s.flag (Adr.LND_BC_CTL 0) 0 = true ∧ s.fld (Adr.LND_BC_CTL 0) 1 2
     = 1 ∧ s.ferryUp 1 = true ∧ (s.xg 1).ctl.length < 16) ∧
  (let s : State := (booted []).runs3 (slist [7, 5, 500]) ((encodeMicro (.fltReport 1 2 3 4)).getD 0)
   Runs s 3 (.fltReport 1 2 3 4) ∧ s.roomAt 4) ∧
  (let s : State := (booted []).runs3 (slist [7, 9, 2]) ((encodeMicro (.pwrReq 1 2 3 0)).getD 0)
   Runs s 3 (.pwrReq 1 2 3 0) ∧ s.powerCode 9 (pstate (2 % 4)) = Code.done ∧ (s.domain 9).phase = .stable ∧ (s.domain 9).st ≠ pstate
     (2 % 4)) :=
  ⟨by decide +kernel, by decide +kernel, by decide +kernel, by decide +kernel, by decide +kernel⟩

theorem witness_Boundary :
  (let s : State := { booted [(Adr.SEQ_L_CTL 3, 0x9)] with
     seq := { Sequencer.fresh with
     lists := [(3, { SList.fresh with st := 1, pc := 5, susp := some (.event 5, .at_ 1000), past := some true })], started := true
       }, evts := [(5, 2)] }
   s.boot.done = true ∧ s.seq.cur = none ∧ s.domUp 1 = true ∧ s.clk.waiting = [] ∧ s.seq.clear = [] ∧ s.selectList = some 3) ∧
  (let s : State := { booted [(Adr.SEQ_L_CTL 3, 0x9)] with
     seq := { Sequencer.fresh with lists := [(3, { SList.fresh with st := 1, enter := true })], started := true }, evts := [(5, 2)]
       }
   s.boot.done = true ∧ s.seq.cur = none ∧ s.domUp 1 = true ∧ s.clk.waiting = [] ∧ s.seq.clear = [] ∧ s.selectList = some 3) :=
  ⟨by decide +kernel, by decide +kernel⟩

theorem witness_ControlStoreErrors :
  (let s : State := booted [(Adr.SEQ_SCRUB, 0x101)]
   s.boot.done = true ∧ s.flag Adr.SEQ_SCRUB 8 = true) :=
  by decide +kernel

theorem witness_Ticks :
  (let s : State := { booted [(Adr.GLB_TICK_RATE, 30 + 65536),(Adr.GLB_TICK_CTL, 0x4000)] with
     clk := { Clk.fresh with now := 1000, lastTick := some 1000, count := 7 } }
   s.boot.done = true ∧ s.selected (.tickIn true) = true ∧ (s.at_ 33341000).early = false) ∧
  (let s : State := { booted [(Adr.GLB_TICK_RATE, 30 + 65536),(Adr.GLB_TICK_CTL, 2)] with
     clk := { Clk.fresh with now := 1000, lastTick := some 1000, count := 7 } }
   s.boot.done = true ∧ s.tickSrc = 2 ∧ (s.at_ 40000000).newInstant = true) ∧
  (let s : State := { booted [(Adr.GLB_TICK_RATE, 30 + 65536),(Adr.GLB_TICK_CTL, 3)] with
     clk := { Clk.fresh with now := 1000, lastTick := some 1000, count := 7, lastK := some 0 } }
   s.boot.done = true ∧ s.tickSrc = 3 ∧ (s.at_ 40000000).newInstant = true) ∧
  (let s : State := { booted [(Adr.GLB_TICK_RATE, 30 + 65536),(Adr.GLB_TICK_CTL, 0x4020)] with
     clk := { Clk.fresh with now := 1000, lastTick := some 1000, count := 7 } }
   s.boot.done = true ∧ s.tickSrc < 2 ∧ s.clk.holdover = false ∧ s.holdoverEn = true ∧ (s.at_ 60000000).overdue = true) ∧
  (let s : State := { booted [(Adr.GLB_TICK_RATE, 30 + 65536),(Adr.GLB_TICK_CTL, 0x4000)] with
     clk := { Clk.fresh with now := 1000, lastTick := some 1000, count := 7 } }
   s.boot.done = true ∧ s.tickSrc < 2 ∧ s.clk.holdover = false ∧ s.holdoverEn = false ∧ (s.at_ 60000000).overdue = true) ∧
  (let s : State := { booted [(Adr.GLB_TICK_RATE, 30 + 65536),(Adr.GLB_TICK_CTL, 0x4020)] with
     clk := { Clk.fresh with now := 1000, lastTick := some 1000, count := 7, holdover := true } }
   s.boot.done = true ∧ s.tickSrc < 2 ∧ s.clk.holdover = true ∧ s.holdoverEn = true ∧ (s.at_ 60000000).periodOver = true) :=
  ⟨by decide +kernel, by decide +kernel, by decide +kernel, by decide +kernel, by decide +kernel, by decide +kernel⟩

theorem witness_EarlyEdges :
  (let s : State := { booted [(Adr.GLB_TICK_RATE, 30 + 65536),(Adr.GLB_TICK_CTL, 0x4000)] with
     clk := { Clk.fresh with now := 1000, lastTick := some 1000, count := 7 } }
   s.boot.done = true ∧ s.selected (.tickIn true) = true ∧ s.clk.lastTick = some 1000 ∧ ¬ (1000000 ≤ 2000 - 1000 ∧ (256 - s.tickTol)
     * s.tickDen * 1000000000 ≤ (2000 - 1000) * 256 * s.tickNum)) ∧
  (let s : State := { booted [(Adr.GLB_TICK_RATE, 30 + 65536),(Adr.GLB_TICK_CTL, 0x4000)] with
     clk := { Clk.fresh with now := 1000, lastTick := some 1000, count := 7 } }
   s.boot.done = true ∧ s.selected (.tickIn true) = true ∧ s.clk.lastTick = some 1000 ∧ ¬ (1000000 ≤ 1000999 - 1000 ∧ (256 -
     s.tickTol) * s.tickDen * 1000000000 ≤ (1000999 - 1000) * 256 * s.tickNum)) ∧
  (let s : State := { booted [(Adr.GLB_TICK_RATE, 30 + 65536),(Adr.GLB_TICK_CTL, 0x4000)] with
     clk := { Clk.fresh with now := 1000, lastTick := some 1000, count := 7 } }
   s.boot.done = true ∧ s.selected (.tickIn true) = true ∧ s.clk.lastTick = some 1000 ∧ ¬ (1000000 ≤ 25000999 - 1000 ∧ (256 -
     s.tickTol) * s.tickDen * 1000000000 ≤ (25000999 - 1000) * 256 * s.tickNum)) ∧
  (let s : State := { booted [(Adr.GLB_TICK_RATE, 30 + 65536),(Adr.GLB_TICK_CTL, 0x4000)] with
     clk := { Clk.fresh with now := 1000, lastTick := some 1000, count := 7 } }
   s.boot.done = true ∧ s.selected (.tickIn true) = true ∧ s.clk.lastTick = some 1000 ∧ (1000000 ≤ 25001000 - 1000 ∧ (256 -
     s.tickTol) * s.tickDen * 1000000000 ≤ (25001000 - 1000) * 256 * s.tickNum)) ∧
  (let s : State := { booted [(Adr.GLB_TICK_RATE, 30 + 65536),(Adr.GLB_TICK_CTL, 0x4000)] with
     clk := { Clk.fresh with now := 1000, lastTick := some 1000, count := 7 } }
   s.boot.done = true ∧ s.selected (.tickIn true) = true ∧ s.clk.lastTick = some 1000 ∧ (1000000 ≤ 33341000 - 1000 ∧ (256 -
     s.tickTol) * s.tickDen * 1000000000 ≤ (33341000 - 1000) * 256 * s.tickNum)) :=
  ⟨by decide +kernel, by decide +kernel, by decide +kernel, by decide +kernel, by decide +kernel⟩

theorem witness_LandingTraining :
  (let s : State := ((booted [(Adr.LND_CTL 0, 1 + 64 * 3 + 512)]).setLg 0 { LGroup.fresh with st := 0 })
   s.lgOn 0 = true ∧ (s.lg 0).st = 0 ∧ s.lgLanesNeeded 0 ≤ popcount 0x1F) ∧
  (let s : State := ((booted [(Adr.LND_CTL 0, 1 + 64 * 3 + 512)]).setLg 0 { LGroup.fresh with st := 1, sig := 31 })
   s.lgOn 0 = true ∧ (s.lg 0).st = 1 ∧ lanesIn (s.lg 0).sig 0x1F = true) ∧
  (let s : State := ((booted [(Adr.LND_CTL 0, 1 + 64 * 3 + 512)]).setLg 0 { LGroup.fresh with st := 2, sig := 31, lock := 1 })
   s.lgOn 0 = true ∧ (s.lg 0).st = 2 ∧ lanesIn (s.lg 0).sig (lanesOr (s.lg 0).lock (lanesAnd (s.lg 0).sig 0x1E)) = true) ∧
  (let s : State := ((booted [(Adr.LND_CTL 0, 1 + 64 * 3 + 512)]).setLg 0 { LGroup.fresh with st := 4, sig := 31, lock := 31 })
   s.lgOn 0 = true ∧ (s.lg 0).st = 4 ∧ lanesIn (s.lg 0).sig (s.lg 0).lock = true) ∧
  (let s : State := ((booted [(Adr.LND_CTL 0, 1 + 64 * 3 + 512)]).setLg 0 { LGroup.fresh with st := 3, sig := 31, lock := 31 })
   s.lgOn 0 = true ∧ 1 ≤ (s.lg 0).st ∧ (s.lg 0).st ≤ 4) ∧
  (let s : State := ((booted [(Adr.LND_CTL 0, 1 + 64 * 3 + 512)]).setLg 0 { LGroup.fresh with st := 1, sig := 31, lock := 31 })
   s.lgOn 0 = true ∧ 1 ≤ (s.lg 0).st ∧ (s.lg 0).st ≤ 4) ∧
  (let s : State := ((booted [(Adr.LND_CTL 0, 1 + 64 * 3 + 512)]).setLg 0 { LGroup.fresh with st := 4, sig := 31, lock := 31 })
   s.lgOn 0 = true ∧ 1 ≤ (s.lg 0).st ∧ (s.lg 0).st ≤ 4) ∧
  (let s : State := ((booted [(Adr.LND_CTL 0, 1 + 64 * 3 + 512)]).setLg 0 { LGroup.fresh with st := 7, sig := 31, lock := 31 })
   s.lgOn 0 = true ∧ (s.lg 0).st = 7) ∧
  (let s : State := ((booted [(Adr.LND_CTL 0, 1 + 64 * 3 + 512),(Adr.PWR_LOOP, 2),(Adr.LND_EQ_CTL 0, 0x201),(Adr.LND_EQ_STAT 0,
     0x55555)]).setLg 0 { LGroup.fresh with st := 5, sig := 31, lock := 31 })
   s.lgOn 0 = true ∧ ((s.lg 0).st = 5 ∨ (s.lg 0).st = 6) ∧ s.flag (Adr.LND_EQ_CTL 0) 0 = true ∧ s.flag (Adr.LND_EQ_CTL 0) 1 = false
     ∧ s.flag Adr.PWR_LOOP 1 = true ∧ hasLane (lanesMinus (s.lg 0).sig (s.lg 0).excl) 0 = true ∧
     ([(3,9,4),(3,4,9),(9,3,3),(3,9,9),(3,4,4)] : List (Nat × Nat × Nat))[0]? = some (3, 9, 4)) :=
  by refine ⟨?_, ?_, ?_, ?_, ?_, ?_, ?_, ?_, ?_⟩ <;> decide +kernel

theorem witness_LandingLanes :
  (let s : State := ((booted [(Adr.LND_CTL 0, 1 + 64 * 3 + 512),(Adr.LND_EQ_CTL 0, 1)]).setLg 0 { LGroup.fresh with
     st := 3, sig := 31, lock := 31 })
   s.lgOn 0 = true ∧ (s.lg 0).st = 3 ∧ s.flag (Adr.LND_EQ_CTL 0) 1 = false ∧ markMap 8 (s.lg 0).sig (s.fld (Adr.LND_CTL 0) 6 3 + 1)
     (s.flag (Adr.LND_CTL 0) 9) [⟨0, 0, 4, true, 9, 0⟩, ⟨1, 2, 4, true, 9, 32⟩, ⟨2, 1, 4, true, 9, 1⟩, ⟨3, 3, 4, true, 9, 0⟩, ⟨4, 8,
     4, true, 9, 0⟩] = some ([0, 2, 1, 3, 8, 15, 15, 15], 4, true) ∧ (s.lg 0).marks = 0) ∧
  (let s : State := ((booted [(Adr.LND_CTL 0, 1 + 64 * 3 + 512),(Adr.LND_EQ_CTL 0, 1)]).setLg 0 { LGroup.fresh with
     st := 3, sig := 31, lock := 31, marks := 1, map := [0, 2, 1, 3, 8, 15, 15, 15], markW := 4, markPar := true })
   s.lgOn 0 = true ∧ (s.lg 0).st = 3 ∧ s.flag (Adr.LND_EQ_CTL 0) 1 = false ∧ markMap 8 (s.lg 0).sig (s.fld (Adr.LND_CTL 0) 6 3 + 1)
     (s.flag (Adr.LND_CTL 0) 9) [⟨0, 0, 4, true, 9, 0⟩, ⟨1, 2, 4, true, 9, 32⟩, ⟨2, 1, 4, true, 9, 1⟩, ⟨3, 3, 4, true, 9, 0⟩, ⟨4, 8,
     4, true, 9, 0⟩] = some ([0, 2, 1, 3, 8, 15, 15, 15], 4, true) ∧ (s.lg 0).marks = 1 ∧ (s.lg 0).map = [0, 2, 1, 3, 8, 15, 15, 15]
     ∧ (s.lg 0).markW = 4 ∧ (s.lg 0).markPar = true) ∧
  (let s : State := ((booted [(Adr.LND_CTL 0, 1 + 64 * 3 + 512),(Adr.LND_EQ_CTL 0, 1)]).setLg 0 { LGroup.fresh with
     st := 5, sig := 31, lock := 31, map := [0, 2, 1, 3, 8, 15, 15, 15], w := 4, par := true })
   s.lgOn 0 = true ∧ (s.lg 0).st = 5 ∧ (s.lg 0).par = true ∧ (s.lg 0).absorbed = false ∧ hasLane (s.lg 0).excl 0 = false ∧ (s.lg
     0).map.getD 0 15 ≠ 15) ∧
  (let s : State := ((booted [(Adr.LND_CTL 0, 1 + 64 * 3 + 512),(Adr.LND_EQ_CTL 0, 1)]).setLg 0 { LGroup.fresh with
     st := 5, sig := 31, lock := 31, map := [0, 2, 1, 3, 8, 15, 15, 15], w := 4, par := true })
   s.lgOn 0 = true ∧ (s.lg 0).st = 5 ∧ (s.lg 0).par = true ∧ (s.lg 0).absorbed = false ∧ hasLane (s.lg 0).excl 4 = false ∧ (s.lg
     0).map.getD 4 15 ≠ 15) ∧
  (let s : State := ((booted [(Adr.LND_CTL 0, 1 + 64 * 3 + 512),(Adr.LND_EQ_CTL 0, 1)]).setLg 0 { LGroup.fresh with
     st := 5, sig := 31, lock := 31, map := [0, 2, 1, 3, 8, 15, 15, 15], w := 4, par := true, excl := 0 })
   s.lgOn 0 = true ∧ ((s.lg 0).st = 5 ∨ (s.lg 0).st = 6) ∧ s.ctlCopies 0 [⟨2#2, 5, 0⟩] = []) ∧
  (let s : State := ((booted [(Adr.LND_CTL 0, 1 + 64 * 3 + 512),(Adr.LND_EQ_CTL 0, 1)]).setLg 0 { LGroup.fresh with
     st := 6, sig := 31, lock := 31, map := [0, 2, 1, 3, 8, 15, 15, 15], w := 4, par := true, excl := 1 })
   s.lgOn 0 = true ∧ ((s.lg 0).st = 5 ∨ (s.lg 0).st = 6) ∧ s.ctlCopies 0 [⟨2#2, 5, 0⟩] = []) ∧
  (let s : State := ((booted [(Adr.LND_CTL 0, 1 + 64 * 3 + 512),(Adr.LND_EQ_CTL 0, 1)]).setLg 0 { LGroup.fresh with
     st := 6, sig := 0x1F, lock := 0x1E, map := [0, 2, 1, 3, 8, 15, 15, 15], w := 4, par := true, excl := 1 })
   let blks := onLanes 5 30
   let v : State := s.heads 0 blks
   s.lgUp 0 = true ∧ s.controlAt 0 blks = some (BitVec.ofNat 64 (30 + crc8 (leBytes 7 30) * 2 ^ 56), v) ∧ (v.lg 0).row = none ∧
     (v.lg 0).info = none) ∧
  (let s : State := ((booted [(Adr.LND_CTL 0, 1 + 64 * 3 + 512),(Adr.LND_EQ_CTL 0, 1)]).setLg 0 { LGroup.fresh with
     st := 6, sig := 0x1F, lock := 0x1E, map := [0, 2, 1, 3, 8, 15, 15, 15], w := 4, par := true, excl := 1 })
   let blks := onLanes 5 153
   let v : State := s.heads 0 blks
   s.lgUp 0 = true ∧ s.controlAt 0 blks = some (BitVec.ofNat 64 (153 + crc8 (leBytes 7 153) * 2 ^ 56), v) ∧ (v.lg 0).row = none ∧
     (v.lg 0).info = none ∧ ctlTypes.contains 0x99 = false) ∧
  (let s : State := ((booted [(Adr.LND_CTL 0, 1 + 64 * 3 + 512),(Adr.LND_EQ_CTL 0, 1)]).setLg 0 { LGroup.fresh with
     st := 6, sig := 0x1F, lock := 0x1E, map := [0, 2, 1, 3, 8, 15, 15, 15], w := 4, par := true, excl := 1 })
   let blks := onLanes 4 0x1E ++ onLanes 1 0x2E
   let v : State := (s.heads 0 blks).bump (Adr.LND_CNT_CTLERR 0)
   s.lgUp 0 = true ∧ s.controlAt 0 blks = some (BitVec.ofNat 64 (0x1E + crc8 (leBytes 7 0x1E) * 2 ^ 56), v) ∧ (v.lg 0).row = none ∧
     (v.lg 0).info = none) ∧
  (let s : State := ((booted [(Adr.LND_CTL 0, 1 + 64 * 3 + 512),(Adr.LND_EQ_CTL 0, 1)]).setLg 0 { LGroup.fresh with
     st := 6, sig := 0x1F, lock := 0x1E, map := [0, 2, 1, 3, 8, 15, 15, 15], w := 4, par := true, excl := 1, ask := some (false, 1,
       5) })
   let blks := onLanes 5 1400
   let v : State := s.heads 0 blks
   s.lgUp 0 = true ∧ s.controlAt 0 blks = some (BitVec.ofNat 64 (1400 + crc8 (leBytes 7 1400) * 2 ^ 56), v) ∧ (v.lg 0).row = none ∧
     (v.lg 0).info = none ∧ (v.lg 0).ask = some (false, 1, 5)) ∧
  (let s : State := ((booted [(Adr.LND_CTL 0, 1 + 64 * 3 + 512),(Adr.LND_EQ_CTL 0, 1)]).setLg 0 { LGroup.fresh with
     st := 6, sig := 0x1F, lock := 0x1E, map := [0, 2, 1, 3, 8, 15, 15, 15], w := 4, par := true, excl := 1, ask := some (true, 1,
       5) })
   let blks := onLanes 5 1400
   let v : State := s.heads 0 blks
   s.lgUp 0 = true ∧ s.controlAt 0 blks = some (BitVec.ofNat 64 (1400 + crc8 (leBytes 7 1400) * 2 ^ 56), v) ∧ (v.lg 0).row = none ∧
     (v.lg 0).info = none ∧ (v.lg 0).ask = some (true, 1, 5)) ∧
  (let s : State := ((booted [(Adr.LND_CTL 0, 1 + 64 * 3 + 512),(Adr.LND_EQ_CTL 0, 1)]).setLg 0 { LGroup.fresh with
     st := 6, sig := 0x1F, lock := 0x1E, map := [0, 2, 1, 3, 8, 15, 15, 15], w := 4, par := true, excl := 1, ask := some (false, 1,
       5) })
   (s.lg 0).ask = some (false, 1, 5)) :=
  by refine ⟨?_, ?_, ?_, ?_, ?_, ?_, ?_, ?_, ?_, ?_, ?_, ?_⟩ <;> decide +kernel

theorem witness_LandingPictures :
  (let s : State := ((booted [(Adr.LND_CTL 0, 1),(Adr.LND_FMT 0, 0),(Adr.LND_GEOM 0, 256 + 65536 * 32),(Adr.FCT_S_CTL 0,
     5),(Adr.SEQ_L_CTL 3, 0x9),(Adr.LND_CASKET 0, 65536 * 8),(Adr.LND_OVF_SIZE 0, 8)]).setLg 0 { LGroup.fresh with
     st := 5, map := [0, 2, 1, 3, 8, 15, 15, 15], w := 4 })
   let d := 327731 + crc8 (leBytes 7 327731) * 2 ^ 56
   let blks := onLanes 4 327731
   let v : State := s.heads 0 blks
   s.lgUp 0 = true ∧ s.controlAt 0 blks = some (BitVec.ofNat 64 d, v) ∧ v.lgMode 0 = 0 ∧ v.lgGang 0 = 1 ∧ (v.lg 0).row = none ∧
     (v.lg 0).info = none ∧ (v.lg 0).pic = none ∧ (v.lg 0).next = none ∧ v.streamRuns 0 (v.lgStream 0) = true ∧ (v.freeSlot
     (v.lgStream 0) 0).isSome = true ∧ v.nBands 0 ≤ v.overflowRoom (v.lgStream 0) 0) ∧
  (let s : State := ((booted [(Adr.LND_CTL 0, 1),(Adr.LND_FMT 0, 0),(Adr.LND_GEOM 0, 256 + 65536 * 32),(Adr.FCT_S_CTL 0,
     5),(Adr.SEQ_L_CTL 3, 0x9),(Adr.LND_CASKET 0, 65536 * 8),(Adr.LND_OVF_SIZE 0, 8)]).setLg 0 { LGroup.fresh with
     st := 5, map := [0, 2, 1, 3, 8, 15, 15, 15], w := 4 })
   let d := 4295295027 + crc8 (leBytes 7 4295295027) * 2 ^ 56
   let blks := onLanes 4 4295295027
   let v : State := s.heads 0 blks
   s.lgUp 0 = true ∧ s.controlAt 0 blks = some (BitVec.ofNat 64 d, v) ∧ v.lgMode 0 = 0 ∧ v.lgGang 0 = 1 ∧ (v.lg 0).row = none ∧
     (v.lg 0).info = none ∧ (v.lg 0).pic = none ∧ (v.lg 0).next = none ∧ v.streamRuns 0 (v.lgStream 0) = true ∧ (v.freeSlot
     (v.lgStream 0) 0).isSome = true) ∧
  (let s : State := ((booted [(Adr.LND_CTL 0, 1),(Adr.LND_FMT 0, 0),(Adr.LND_GEOM 0, 256 + 65536 * 32),(Adr.FCT_S_CTL 0,
     5),(Adr.SEQ_L_CTL 3, 0x9),(Adr.LND_OVF_SIZE 0, 8)]).setLg 0 { LGroup.fresh with
     st := 5, map := [0, 2, 1, 3, 8, 15, 15, 15], w := 4 })
   let d := 327731 + crc8 (leBytes 7 327731) * 2 ^ 56
   let blks := onLanes 4 327731
   let v : State := s.heads 0 blks
   s.lgUp 0 = true ∧ s.controlAt 0 blks = some (BitVec.ofNat 64 d, v) ∧ v.lgMode 0 = 0 ∧ v.lgGang 0 = 1 ∧ (v.lg 0).row = none ∧
     (v.lg 0).info = none ∧ (v.lg 0).pic = none ∧ (v.lg 0).next = none ∧ v.streamRuns 0 (v.lgStream 0) = true ∧ v.freeSlot
     (v.lgStream 0) 0 = none ∧ (v.fs (v.lgStream 0)).refused ≠ some 5) ∧
  (let s : State := (((booted [(Adr.LND_CTL 0, 1),(Adr.LND_FMT 0, 0),(Adr.LND_GEOM 0, 256 + 65536 * 32),(Adr.FCT_S_CTL 0,
     5),(Adr.LND_CASKET 0, 65536 * 8),(Adr.LND_OVF_SIZE 0, 8)]).setFs 0 { FStream.fresh with
     accepted := 1, pics := [⟨0, 0, 5, 5, 0, false, false, none, [], [], 0, 8, [], [], false, false, 0, false, 0, false, 0, 0, [],
       []⟩] }).setLg 0 { LGroup.fresh with
     st := 5, map := [0, 2, 1, 3, 8, 15, 15, 15], w := 4, pic := some (⟨5, some 0, none, none, 0, false⟩ : GPic) })
   let d := 85 + crc8 (leBytes 7 85) * 2 ^ 56
   let blks := onLanes 4 85
   let v : State := s.heads 0 blks
   s.lgUp 0 = true ∧ s.controlAt 0 blks = some (BitVec.ofNat 64 d, v) ∧ v.lgMode 0 = 0 ∧ v.lgGang 0 = 1 ∧ (v.lg 0).row = none ∧
     (v.lg 0).info = none ∧ (v.lg 0).pic = some (⟨5, some 0, none, none, 0, false⟩ : GPic) ∧ 0 < v.lgHeight 0) ∧
  (let s : State := (((booted [(Adr.LND_CTL 0, 1),(Adr.LND_FMT 0, 0),(Adr.LND_GEOM 0, 256 + 65536 * 32),(Adr.FCT_S_CTL 0,
     5),(Adr.LND_CASKET 0, 65536 * 8),(Adr.LND_OVF_SIZE 0, 8)]).setFs 0 { FStream.fresh with
     accepted := 1, pics := [⟨0, 0, 5, 5, 0, false, false, none, [], [], 0, 8, [], [], false, false, 0, false, 0, false, 0, 0, [],
       []⟩] }).setLg 0 { LGroup.fresh with
     st := 5, map := [0, 2, 1, 3, 8, 15, 15, 15], w := 4, pic := some (⟨5, some 0, none, some 15, 16, false⟩ : GPic) })
   let d := 268435541 + crc8 (leBytes 7 268435541) * 2 ^ 56
   let blks := onLanes 4 268435541
   let v : State := s.heads 0 blks
   s.lgUp 0 = true ∧ s.controlAt 0 blks = some (BitVec.ofNat 64 d, v) ∧ v.lgMode 0 = 0 ∧ v.lgGang 0 = 1 ∧ (v.lg 0).row = none ∧
     (v.lg 0).info = none ∧ (v.lg 0).pic = some (⟨5, some 0, none, some 15, 16, false⟩ : GPic) ∧ 16 < v.lgHeight 0) ∧
  (let s : State := (((booted [(Adr.LND_CTL 0, 1),(Adr.LND_FMT 0, 0),(Adr.LND_GEOM 0, 256 + 65536 * 32),(Adr.FCT_S_CTL 0,
     5),(Adr.LND_CASKET 0, 65536 * 8),(Adr.LND_OVF_SIZE 0, 8)]).setFs 0 { FStream.fresh with
     accepted := 1, pics := [⟨0, 0, 5, 5, 0, false, false, none, [], [], 0, 8, [], [], false, false, 0, false, 0, false, 0, 0, [],
       []⟩] }).setLg 0 { LGroup.fresh with
     st := 5, map := [0, 2, 1, 3, 8, 15, 15, 15], w := 4, pic := some (⟨5, some 0, none, some 15, 16, false⟩ : GPic) })
   let d := 78187493436 + crc8 (leBytes 7 78187493436) * 2 ^ 56
   let blks := onLanes 4 78187493436
   let v : State := s.heads 0 blks
   s.lgUp 0 = true ∧ s.controlAt 0 blks = some (BitVec.ofNat 64 d, v) ∧ v.lgMode 0 = 0 ∧ v.lgGang 0 = 1 ∧ (v.lg 0).row = none ∧
     (v.lg 0).info = none ∧ (v.lg 0).pic = some (⟨5, some 0, none, some 15, 16, false⟩ : GPic)) ∧
  (let s : State := (((booted [(Adr.LND_CTL 0, 1),(Adr.LND_FMT 0, 0),(Adr.LND_GEOM 0, 256 + 65536 * 32),(Adr.FCT_S_CTL 0,
     5),(Adr.LND_CASKET 0, 65536 * 8),(Adr.LND_OVF_SIZE 0, 8)]).setFs 0 { FStream.fresh with
     accepted := 1, pics := [⟨0, 0, 5, 5, 0, false, false, none, [], [], 0, 8, [], [], false, false, 0, false, 0, false, 0, 0, [],
       []⟩] }).setLg 0 { LGroup.fresh with
     st := 5, map := [0, 2, 1, 3, 8, 15, 15, 15], w := 4, pic := some (⟨5, some 0, none, none, 0, false⟩ : GPic) })
   let d := 268435558 + crc8 (leBytes 7 268435558) * 2 ^ 56
   let blks := onLanes 4 268435558
   let v : State := s.heads 0 blks
   s.lgUp 0 = true ∧ s.controlAt 0 blks = some (BitVec.ofNat 64 d, v) ∧ v.lgMode 0 = 0 ∧ v.lgGang 0 = 1 ∧ (v.lg 0).row = none ∧
     (v.lg 0).info = none ∧ (v.lg 0).pic = some (⟨5, some 0, none, none, 0, false⟩ : GPic)) ∧
  (let s : State := (((booted [(Adr.LND_CTL 0, 1),(Adr.LND_FMT 0, 0),(Adr.LND_GEOM 0, 256 + 65536 * 32),(Adr.FCT_S_CTL 0,
     5),(Adr.LND_CASKET 0, 65536 * 8),(Adr.LND_OVF_SIZE 0, 8)]).setFs 0 { FStream.fresh with
     accepted := 1, pics := [⟨0, 0, 5, 5, 0, false, false, none, [], [], 0, 8, [], [], false, false, 0, false, 0, false, 0, 0, [],
       []⟩] }).setLg 0 { LGroup.fresh with
     st := 5, map := [0, 2, 1, 3, 8, 15, 15, 15], w := 4, pic := some (⟨5, some 0, none, some 31, 32, false⟩ : GPic) })
   let d := 137438953550 + crc8 (leBytes 7 137438953550) * 2 ^ 56
   let blks := onLanes 4 137438953550
   let v : State := s.heads 0 blks
   s.lgUp 0 = true ∧ s.controlAt 0 blks = some (BitVec.ofNat 64 d, v) ∧ v.lgMode 0 = 0 ∧ v.lgGang 0 = 1 ∧ (v.lg 0).row = none ∧
     (v.lg 0).info = none ∧ (v.lg 0).pic = some (⟨5, some 0, none, some 31, 32, false⟩ : GPic) ∧ v.lgHeight 0 = 32) ∧
  (let s : State := ((booted [(Adr.LND_CTL 0, 1),(Adr.LND_FMT 0, 0),(Adr.LND_GEOM 0, 256 + 65536 * 32),(Adr.FCT_S_CTL 0, 5)]).setLg
     0 { LGroup.fresh with
     st := 5, map := [0,1,2,3,15,15,15,15], w := 4, row := some 3, pic := some (⟨5, some 0, none, some 3, 4, false⟩ : GPic) })
   let v : State := s.heads 0 [(⟨1#2, 5, 9⟩ : LaneBlock),(⟨1#2, 5, 9⟩ : LaneBlock),⟨2#2, 0, 0⟩,(⟨1#2, 5, 9⟩ : LaneBlock)]
   s.lgUp 0 = true ∧ (v.lg 0).row = some 3 ∧ (v.lg 0).par = false ∧ (v.lg 0).blks.length + (v.lg 0).w < ceilDiv (v.rowLen 0) 32 * 9) ∧
  (let s : State := (((booted [(Adr.LND_CTL 0, 1),(Adr.LND_FMT 0, 0),(Adr.LND_GEOM 0, 256 + 65536 * 32),(Adr.FCT_S_CTL 0, 5)]).setFs
     0 { FStream.fresh with
     accepted := 1, pics := [⟨0, 0, 5, 5, 0, false, false, none, [], [], 0, 8, [], [], false, false, 0, false, 0, false, 0, 0, [],
       []⟩] }).setLg 0 { LGroup.fresh with
     st := 5, map := [0,1,2,3,15,15,15,15], w := 4, info := some (64, true, [some 1#64, none]), pic := some (⟨5, some 0, none, none,
       0, false⟩ : GPic) })
   let v : State := s.heads 0 [(⟨1#2, 5, 9⟩ : LaneBlock),(⟨1#2, 5, 9⟩ : LaneBlock),laneBlock 1#2 0x1122334455667788#64,(⟨1#2, 5, 9⟩
     : LaneBlock)]
   s.lgUp 0 = true ∧ (v.lg 0).row = none ∧ (v.lg 0).info = some (64, true, [some 1#64, none]) ∧ (v.lg 0).par = false ∧ [some 1#64,
     none].length + (v.lg 0).w < ceilDiv 64 8) ∧
  (let s : State := (((booted [(Adr.LND_CTL 0, 1),(Adr.LND_FMT 0, 0),(Adr.LND_GEOM 0, 256 + 65536 * 32),(Adr.FCT_S_CTL 0, 5)]).setFs
     0 { FStream.fresh with
     accepted := 1, pics := [⟨0, 0, 5, 5, 0, false, false, none, [], [], 0, 8, [], [], false, false, 0, false, 0, false, 0, 0, [],
       []⟩] }).setLg 0 { LGroup.fresh with
     st := 5, map := [0,1,2,3,15,15,15,15], w := 4, info := some (41, true, [some 1#64, some 0x0807060504030201#64]), pic := some
       (⟨5, some 0, none, none, 0, false⟩ : GPic) })
   let v : State := s.heads 0 [(⟨1#2, 5, 9⟩ : LaneBlock),(⟨1#2, 5, 9⟩ : LaneBlock),laneBlock 1#2 0x1122334455667788#64,(⟨1#2, 5, 9⟩
     : LaneBlock)]
   s.lgUp 0 = true ∧ (v.lg 0).row = none ∧ (v.lg 0).info = some (41, true, [some 1#64, some 0x0807060504030201#64]) ∧ (v.lg 0).par =
     false ∧ ceilDiv 41 8 ≤ [some 1#64, some 0x0807060504030201#64].length + (v.lg 0).w ∧ (([some 1#64, some 0x0807060504030201#64]
     ++ (List.range 4).map fun j => v.slotData 0 j [(⟨1#2, 5, 9⟩ : LaneBlock),(⟨1#2, 5, 9⟩ : LaneBlock),laneBlock 1#2
     0x1122334455667788#64,(⟨1#2, 5, 9⟩ : LaneBlock)]).all fun b => b.isSome) = true ∧ (v.lg 0).pic = some (⟨5, some 0, none, none,
     0, false⟩ : GPic) ∧ v.pic? (v.lgStream 0) 0 = some ⟨0, 0, 5, 5, 0, false, false, none, [], [], 0, 8, [], [], false, false, 0,
     false, 0, false, 0, 0, [], []⟩) :=
  by refine ⟨?_, ?_, ?_, ?_, ?_, ?_, ?_, ?_, ?_, ?_, ?_⟩ <;> decide +kernel

theorem witness_CrossingTraining :
  (let s : State := ((booted [(Adr.XCV_CTL 0, 1 + 32 * 2),(Adr.XCV_EQ_CTL 0, 1)]).setXg 0 { XGroup.fresh with st := 0, txSeq := 7 })
   s.ferryOn 0 = true ∧ (s.xg 0).st = 0 ∧ 0 < popcount (lanesAnd 15 (2 ^ s.xgWidth 0 - 1))) ∧
  (let s : State := ((booted [(Adr.XCV_CTL 0, 1 + 32 * 2),(Adr.XCV_EQ_CTL 0, 1)]).setXg 0 { XGroup.fresh with st := 1, sig := 15 })
   s.ferryOn 0 = true ∧ (s.xg 0).st = 1 ∧ lanesIn (s.xg 0).sig 15 = true) ∧
  (let s : State := ((booted [(Adr.XCV_CTL 0, 1 + 32 * 2),(Adr.XCV_EQ_CTL 0, 1)]).setXg 0 { XGroup.fresh with st := 2, sig := 15 })
   s.ferryOn 0 = true ∧ (s.xg 0).st = 2 ∧ lanesIn (s.xg 0).sig (lanesOr (s.xg 0).lock (lanesAnd (s.xg 0).sig 15)) = true) ∧
  (let s : State := ((booted [(Adr.XCV_CTL 0, 1 + 32 * 2),(Adr.XCV_EQ_CTL 0, 1)]).setXg 0 { XGroup.fresh with
     st := 3, sig := 15, lock := 15, marks := 1, markMap := [0, 2, 1, 3] })
   s.ferryOn 0 = true ∧ (s.xg 0).st = 3 ∧ s.flag (Adr.XCV_EQ_CTL 0) 1 = false ∧ markMap 4 (s.xg 0).sig (s.xgWidth 0) false [⟨0, 0,
     4, false, 9, 0⟩, ⟨1, 2, 4, false, 9, 32⟩, ⟨2, 1, 4, false, 9, 1⟩, ⟨3, 3, 4, false, 9, 0⟩] = some ([0, 2, 1, 3], 4, false) ∧
     (s.xg 0).marks = 1 ∧ (s.xg 0).markMap = [0, 2, 1, 3]) ∧
  (let s : State := ((booted [(Adr.XCV_CTL 0, 1 + 32 * 2),(Adr.XCV_EQ_CTL 0, 1)]).setXg 0 { XGroup.fresh with
     st := 4, sig := 15, lock := 15 })
   s.ferryOn 0 = true ∧ (s.xg 0).st = 4 ∧ lanesIn (s.xg 0).sig (s.xg 0).lock = true) ∧
  (let s : State := ((booted [(Adr.XCV_CTL 0, 1 + 32 * 2),(Adr.XCV_EQ_CTL 0, 1)]).setXg 0 { XGroup.fresh with
     st := 5, sig := 15, lock := 15, peer := 2, agree := 6 })
   s.ferryOn 0 = true ∧ (s.xg 0).st = 5 ∧ ((⟨7, true, 0⟩ : TrainBlk)).ready = true ∧ (([4, 2, 1] : List Nat).find? fun w => w ≤
     s.xgWidth 0 ∧ w ≤ popcount (lanesAnd (s.xg 0).lock 7)) = some 2 ∧ (s.xg 0).peer = 2 ∧ (s.xg 0).agree = 6) ∧
  (let s : State := ((booted [(Adr.XCV_CTL 0, 1 + 32 * 2),(Adr.XCV_EQ_CTL 0, 1)]).setXg 0 { XGroup.fresh with
     st := 5, sig := 15, lock := 15, peer := 2, agree := 7 })
   s.ferryOn 0 = true ∧ (s.xg 0).st = 5 ∧ ((⟨7, true, 0⟩ : TrainBlk)).ready = true ∧ (([4, 2, 1] : List Nat).find? fun w => w ≤
     s.xgWidth 0 ∧ w ≤ popcount (lanesAnd (s.xg 0).lock 7)) = some 2 ∧ (s.xg 0).peer = 2 ∧ (s.xg 0).agree = 7) ∧
  (let s : State := ((booted [(Adr.XCV_CTL 0, 1 + 32 * 2),(Adr.XCV_EQ_CTL 0, 1)]).setXg 0 { XGroup.fresh with
     st := 5, sig := 15, lock := 15 })
   s.ferryOn 0 = true ∧ 1 ≤ (s.xg 0).st ∧ (s.xg 0).st ≤ 5 ∧ s.roomAt 24) ∧
  (let s : State := ((booted [(Adr.XCV_CTL 0, 1 + 32 * 2),(Adr.XCV_EQ_CTL 0, 1)]).setXg 0 { XGroup.fresh with
     st := 1, sig := 15, lock := 15 })
   s.ferryOn 0 = true ∧ 1 ≤ (s.xg 0).st ∧ (s.xg 0).st ≤ 5 ∧ s.roomAt 24) ∧
  (let s : State := ((booted [(Adr.XCV_CTL 0, 1 + 32 * 2),(Adr.XCV_EQ_CTL 0, 1)]).setXg 0 { XGroup.fresh with
     st := 7, sig := 15, lock := 15 })
   s.ferryOn 0 = true ∧ (s.xg 0).st = 7) ∧
  (let s : State := ((booted [(Adr.XCV_CTL 0, 1 + 32 * 2),(Adr.XCV_EQ_CTL 0, 1)]).setXg 0 { XGroup.fresh with
     st := 3, sig := 15, lock := 15 })
   s.ferryOn 0 = true ∧ (s.xg 0).st ≠ 6 ∧ hasLane (s.xg 0).lock 3 = true) ∧
  (let s : State := ((booted [(Adr.XCV_CTL 0, 1 + 32 * 2),(Adr.XCV_EQ_CTL 0, 1)]).setXg 0 { XGroup.fresh with
     st := 6, sig := 15, lock := 15 })
   s.ferryOn 0 = true ∧ s.ferryOn 0 = true) :=
  by refine ⟨?_, ?_, ?_, ?_, ?_, ?_, ?_, ?_, ?_, ?_, ?_, ?_⟩ <;> decide +kernel

theorem witness_FacetEngines :
  (let s : State := (((booted [(Adr.FCT_S_CTL 0, 1 + 4 + 65536 * 2),(Adr.LND_GEOM 0, 256 + 65536 * 32),(Adr.LND_FMT 0,
     0xC),(Adr.FCT_S_RQ 0, 9),(Adr.QF_Q_CFG 9, 3),(Adr.QF_Q_STORE 9, 8),(Adr.FCT_LQ_BASE 0, 16),(Adr.QF_Q_CFG 16, 3),(Adr.QF_Q_CFG
     17, 3),(Adr.QF_Q_CFG 18, 3),(Adr.QF_Q_CFG 19, 3),(Adr.QF_Q_CFG 20, 3),(Adr.QF_Q_CFG 21, 3),(Adr.QF_Q_CFG 22, 3),(Adr.QF_Q_CFG
     23, 3),(Adr.QF_Q_STORE 16, 64),(Adr.QF_Q_STORE 17, 64),(Adr.QF_Q_STORE 18, 64),(Adr.QF_Q_STORE 19, 64),(Adr.QF_Q_STORE 20,
     64),(Adr.QF_Q_STORE 21, 64),(Adr.QF_Q_STORE 22, 64),(Adr.QF_Q_STORE 23, 64)]).setFs 0 { FStream.fresh with
     accepted := 1, pics := [(⟨0, 0, 1, 5, 0, false, false, none, [], List.replicate 16 0, 4096, 8, [], [(0, { Band.empty with
     st := .coding, eng := 0, rows := [[100]], bb := 400 })], false, false, 0, false, 0, false, 0, 0, [], []⟩ : FPic)] }).setEng 0 {
       FEngine.fresh with
     st := 2, work := some (⟨0, 0, 0, 0, List.replicate 8 8, 2, [], [(⟨0, 0, 8, [⟨[1, 2], [], 0, 0, 0⟩, ⟨[1, 2], [], 0, 0, 0⟩, ⟨[1,
       2], [], 0, 0, 0⟩], ⟨[1, 2], [], 0, 0, 0⟩, false, 0⟩ : Undec)], List.replicate 8 0, false⟩ : FWork) })
   let w : FWork := (⟨0, 0, 0, 0, List.replicate 8 8, 2, [], [(⟨0, 0, 8, [⟨[1, 2], [], 0, 0, 0⟩, ⟨[1, 2], [], 0, 0, 0⟩, ⟨[1, 2], [],
     0, 0, 0⟩], ⟨[1, 2], [], 0, 0, 0⟩, false, 0⟩ : Undec)], List.replicate 8 0, false⟩ : FWork)
   let p : FPic := (⟨0, 0, 1, 5, 0, false, false, none, [], List.replicate 16 0, 4096, 8, [], [(0, { Band.empty with
     st := .coding, eng := 0, rows := [[100]], bb := 400 })], false, false, 0, false, 0, false, 0, 0, [], []⟩ : FPic)
   let r : Undec := (⟨0, 0, 8, [⟨[1, 2], [], 0, 0, 0⟩, ⟨[1, 2], [], 0, 0, 0⟩, ⟨[1, 2], [], 0, 0, 0⟩], ⟨[1, 2], [], 0, 0, 0⟩, false,
     0⟩ : Undec)
   (s.eng 0).work = some w ∧ s.pic? 0 0 = some p ∧ w.stream = 0 ∧ w.ord = 0 ∧ w.stopped = false ∧ s.fMode 0 = 2 ∧ s.domUp 3 = true ∧
     (w.und.filter fun x => x.m % 8 = ((s.lay 0).decRow w.n w.idx).1 % 8) = r :: [] ∧ r.m = ((s.lay 0).decRow w.n w.idx).1 ∧ r.r =
     ((s.lay 0).decRow w.n w.idx).2 ∧ r.forced = false ∧ (r.finest (p.allowance (s.lay 0) w.n w.idx (s.picP p).n)).map (·.1) = some
     0) ∧
  (let s : State := (((booted [(Adr.FCT_S_CTL 0, 1 + 4 + 65536 * 2),(Adr.LND_GEOM 0, 256 + 65536 * 32),(Adr.LND_FMT 0,
     0xC),(Adr.FCT_S_RQ 0, 9),(Adr.QF_Q_CFG 9, 3),(Adr.QF_Q_STORE 9, 8),(Adr.FCT_LQ_BASE 0, 16),(Adr.QF_Q_CFG 16, 3),(Adr.QF_Q_CFG
     17, 3),(Adr.QF_Q_CFG 18, 3),(Adr.QF_Q_CFG 19, 3),(Adr.QF_Q_CFG 20, 3),(Adr.QF_Q_CFG 21, 3),(Adr.QF_Q_CFG 22, 3),(Adr.QF_Q_CFG
     23, 3),(Adr.QF_Q_STORE 16, 64),(Adr.QF_Q_STORE 17, 64),(Adr.QF_Q_STORE 18, 64),(Adr.QF_Q_STORE 19, 64),(Adr.QF_Q_STORE 20,
     64),(Adr.QF_Q_STORE 21, 64),(Adr.QF_Q_STORE 22, 64),(Adr.QF_Q_STORE 23, 64)]).setFs 0 { FStream.fresh with
     accepted := 1, pics := [(⟨0, 0, 1, 5, 0, false, false, none, [], List.replicate 16 0, 4096, 8, [], [(0, { Band.empty with
     st := .coding, eng := 0, rows := [[100]], bb := 400 })], false, false, 0, false, 0, false, 0, 0, [], []⟩ : FPic)] }).setEng 0 {
       FEngine.fresh with
     st := 2, work := some (⟨0, 0, 0, 0, List.replicate 8 8, 2, [], [(⟨0, 0, 8, [⟨List.replicate 500 1, [], 0, 0, 0⟩, ⟨[1, 2], [],
       0, 0, 0⟩, ⟨[1, 2], [], 0, 0, 0⟩], ⟨[1, 2], [], 0, 0, 0⟩, false, 0⟩ : Undec)], List.replicate 8 0, false⟩ : FWork) })
   let w : FWork := (⟨0, 0, 0, 0, List.replicate 8 8, 2, [], [(⟨0, 0, 8, [⟨List.replicate 500 1, [], 0, 0, 0⟩, ⟨[1, 2], [], 0, 0,
     0⟩, ⟨[1, 2], [], 0, 0, 0⟩], ⟨[1, 2], [], 0, 0, 0⟩, false, 0⟩ : Undec)], List.replicate 8 0, false⟩ : FWork)
   let p : FPic := (⟨0, 0, 1, 5, 0, false, false, none, [], List.replicate 16 0, 4096, 8, [], [(0, { Band.empty with
     st := .coding, eng := 0, rows := [[100]], bb := 400 })], false, false, 0, false, 0, false, 0, 0, [], []⟩ : FPic)
   let r : Undec := (⟨0, 0, 8, [⟨List.replicate 500 1, [], 0, 0, 0⟩, ⟨[1, 2], [], 0, 0, 0⟩, ⟨[1, 2], [], 0, 0, 0⟩], ⟨[1, 2], [], 0,
     0, 0⟩, false, 0⟩ : Undec)
   (s.eng 0).work = some w ∧ s.pic? 0 0 = some p ∧ w.stream = 0 ∧ w.ord = 0 ∧ w.stopped = false ∧ s.fMode 0 = 2 ∧ s.domUp 3 = true ∧
     (w.und.filter fun x => x.m % 8 = ((s.lay 0).decRow w.n w.idx).1 % 8) = r :: [] ∧ r.m = ((s.lay 0).decRow w.n w.idx).1 ∧ r.r =
     ((s.lay 0).decRow w.n w.idx).2 ∧ r.forced = false ∧ (r.finest (p.allowance (s.lay 0) w.n w.idx (s.picP p).n)).map (·.1) = some
     1) ∧
  (let s : State := (((booted [(Adr.FCT_S_CTL 0, 1 + 4 + 65536 * 2),(Adr.LND_GEOM 0, 256 + 65536 * 32),(Adr.LND_FMT 0,
     0xC),(Adr.FCT_S_RQ 0, 9),(Adr.QF_Q_CFG 9, 3),(Adr.QF_Q_STORE 9, 8),(Adr.FCT_LQ_BASE 0, 16),(Adr.QF_Q_CFG 16, 3),(Adr.QF_Q_CFG
     17, 3),(Adr.QF_Q_CFG 18, 3),(Adr.QF_Q_CFG 19, 3),(Adr.QF_Q_CFG 20, 3),(Adr.QF_Q_CFG 21, 3),(Adr.QF_Q_CFG 22, 3),(Adr.QF_Q_CFG
     23, 3),(Adr.QF_Q_STORE 16, 64),(Adr.QF_Q_STORE 17, 64),(Adr.QF_Q_STORE 18, 64),(Adr.QF_Q_STORE 19, 64),(Adr.QF_Q_STORE 20,
     64),(Adr.QF_Q_STORE 21, 64),(Adr.QF_Q_STORE 22, 64),(Adr.QF_Q_STORE 23, 64)]).setFs 0 { FStream.fresh with
     accepted := 1, pics := [(⟨0, 0, 1, 5, 0, false, false, none, [], List.replicate 16 0, 4096, 8, [], [(0, { Band.empty with
     st := .coding, eng := 0, rows := [[100]], bb := 400 })], false, false, 0, false, 0, false, 0, 0, [], []⟩ : FPic)] }).setEng 0 {
       FEngine.fresh with
     st := 2, work := some (⟨0, 0, 0, 1, List.replicate 8 8, 2, [], [], List.replicate 8 0, false⟩ : FWork) })
   let w : FWork := (⟨0, 0, 0, 1, List.replicate 8 8, 2, [], [], List.replicate 8 0, false⟩ : FWork)
   let p : FPic := (⟨0, 0, 1, 5, 0, false, false, none, [], List.replicate 16 0, 4096, 8, [], [(0, { Band.empty with
     st := .coding, eng := 0, rows := [[100]], bb := 400 })], false, false, 0, false, 0, false, 0, 0, [], []⟩ : FPic)
   (s.eng 0).work = some w ∧ s.pic? 0 0 = some p ∧ w.stream = 0 ∧ w.ord = 0 ∧ w.stopped = false ∧ s.fMode 0 = 2 ∧ s.domUp 3 = true ∧
     w.idx = (s.lay 0).ns * (s.lay 0).rowsOf 0 ∧ w.n = 0 ∧ s.lanesDrained 0 = true ∧ (s.eng 0).queue = []) ∧
  (let s : State := ((booted [(Adr.FCT_S_CTL 0, 1 + 4 + 65536 * 2),(Adr.LND_GEOM 0, 256 + 65536 * 32),(Adr.LND_FMT 0,
     0xC),(Adr.FCT_S_RQ 0, 9),(Adr.QF_Q_CFG 9, 3),(Adr.QF_Q_STORE 9, 8),(Adr.FCT_LQ_BASE 0, 16),(Adr.QF_Q_CFG 16, 3),(Adr.QF_Q_CFG
     17, 3),(Adr.QF_Q_CFG 18, 3),(Adr.QF_Q_CFG 19, 3),(Adr.QF_Q_CFG 20, 3),(Adr.QF_Q_CFG 21, 3),(Adr.QF_Q_CFG 22, 3),(Adr.QF_Q_CFG
     23, 3),(Adr.QF_Q_STORE 16, 64),(Adr.QF_Q_STORE 17, 64),(Adr.QF_Q_STORE 18, 64),(Adr.QF_Q_STORE 19, 64),(Adr.QF_Q_STORE 20,
     64),(Adr.QF_Q_STORE 21, 64),(Adr.QF_Q_STORE 22, 64),(Adr.QF_Q_STORE 23, 64)]).setFs 0 { FStream.fresh with
     accepted := 1, pics := [(⟨0, 0, 1, 5, 0, false, false, none, [], List.replicate 16 0, 0, 8, [], [(0, { Band.empty with
     st := .moving, eng := 0, segs := [⟨0, true, false⟩] })], false, false, 0, false, 0, false, 0, 0, [], []⟩ : FPic)] })
   let p := (⟨0, 0, 1, 5, 0, false, false, none, [], List.replicate 16 0, 0, 8, [], [(0, { Band.empty with
     st := .moving, eng := 0, segs := [⟨0, true, false⟩] })], false, false, 0, false, 0, false, 0, 0, [], []⟩ : FPic)
   s.movingBand 0 = some (p, 0) ∧ s.pic? 0 0 = some p ∧ s.lockFree 9 5 = true ∧ s.fld (Adr.FCT_S_RQ 0) 0 12 = 9 ∧ s.hasEvent 0x18 =
     true) :=
  ⟨by decide +kernel, by decide +kernel, by decide +kernel, by decide +kernel⟩

theorem witness_CodecEngines :
  (let s : State := (((booted [(Adr.COD_C_CTL 0, 1 + 4),(Adr.COD_C_GEOM 0, 256 + 65536 * 64),(Adr.COD_C_IO 0, 9),(Adr.QF_Q_CFG 9,
     3),(Adr.QF_Q_STORE 9, 8)]).setCx 0 { Ctx.fresh with
     work := [(0, (⟨⟨⟨0, none, 0, 0, true, false, none, false, 0, ⟨0, 0, 0, 0⟩, 0⟩, 0, 0, true⟩, 1000, 0, 10, [30], 30, 0, 0, 0, [],
       [], [], 0, [], [], [], [], ⟨true, false, 0, 0, none, 0, none, false, 0, 8⟩⟩ : CWork))] }).setCe 0 { CEngine.fresh with
     cur := some 0 })
   let w := (⟨⟨⟨0, none, 0, 0, true, false, none, false, 0, ⟨0, 0, 0, 0⟩, 0⟩, 0, 0, true⟩, 1000, 0, 10, [30], 30, 0, 0, 0, [], [],
     [], 0, [], [], [], [], ⟨true, false, 0, 0, none, 0, none, false, 0, 8⟩⟩ : CWork)
   (s.ce 0).cur = some 0 ∧ tget? (s.cx 0).work (s.cTile 0 0) = some w ∧ w.row < s.cRows 0 ∧ s.cClass 0 ≠ 0 ∧ s.domUp 8 = true ∧
     s.cWhole 0 = false ∧ s.rowOk 0 (s.cTile 0 0) w (s.cAllowance 0 w) (⟨[[0, 0, 1, 64], [0, 0, 1, 66], [0, 0, 1, 68]], [0, 0, 1,
     40] ++ List.replicate 3 7, [], List.replicate 4 (3, 3), [], []⟩ : SliceOut) (⟨[[0, 0, 1, 64], [0, 0, 1, 66], [0, 0, 1, 68]],
     [0, 0, 1, 40] ++ List.replicate 2 7, [], List.replicate 4 (3, 3), [], []⟩ : SliceOut) = true) ∧
  (let s : State := (((booted [(Adr.COD_C_CTL 0, 1 + 4),(Adr.COD_C_GEOM 0, 256 + 65536 * 64),(Adr.COD_C_IO 0, 9),(Adr.QF_Q_CFG 9,
     3),(Adr.QF_Q_STORE 9, 8)]).setCx 0 { Ctx.fresh with
     work := [(0, (⟨⟨⟨0, none, 0, 0, true, false, none, false, 0, ⟨18, 0, 0, 0⟩, 0⟩, 0, 0, true⟩, 1000, 0, 10, [30], 30, 0, 0, 0,
       [], [], [], 0, [], [], [], [], ⟨true, false, 0, 0, none, 0, none, false, 0, 8⟩⟩ : CWork))] }).setCe 0 { CEngine.fresh with
     cur := some 0 })
   let w := (⟨⟨⟨0, none, 0, 0, true, false, none, false, 0, ⟨18, 0, 0, 0⟩, 0⟩, 0, 0, true⟩, 1000, 0, 10, [30], 30, 0, 0, 0, [], [],
     [], 0, [], [], [], [], ⟨true, false, 0, 0, none, 0, none, false, 0, 8⟩⟩ : CWork)
   (s.ce 0).cur = some 0 ∧ tget? (s.cx 0).work (s.cTile 0 0) = some w ∧ w.row < s.cRows 0 ∧ s.cClass 0 ≠ 0 ∧ s.domUp 8 = true ∧
     s.cWhole 0 = false ∧ s.rowOk 0 (s.cTile 0 0) w (s.cAllowance 0 w) (⟨[[0, 0, 1, 64], [0, 0, 1, 66], [0, 0, 1, 68]], [0, 0, 1,
     40] ++ List.replicate 30 7, [], List.replicate 4 (3, 3), [], []⟩ : SliceOut) (⟨[[0, 0, 1, 64], [0, 0, 1, 66], [0, 0, 1, 68]],
     [0, 0, 1, 40] ++ List.replicate 2 7, [], List.replicate 4 (3, 3), [], []⟩ : SliceOut) = true) ∧
  (let s : State := (((booted [(Adr.COD_C_CTL 0, 1 + 4),(Adr.COD_C_GEOM 0, 256 + 65536 * 64),(Adr.COD_C_IO 0, 9),(Adr.QF_Q_CFG 9,
     3),(Adr.QF_Q_STORE 9, 8)]).setCx 0 { Ctx.fresh with
     work := [(0, (⟨⟨⟨0, none, 0, 0, true, false, none, false, 0, ⟨18, 0, 0, 0⟩, 0⟩, 0, 0, true⟩, 5, 0, 10, [30], 30, 0, 0, 0, [],
       [], [], 0, [], [], [], [], ⟨true, false, 0, 0, none, 0, none, false, 0, 8⟩⟩ : CWork))] }).setCe 0 { CEngine.fresh with
     cur := some 0 })
   let w := (⟨⟨⟨0, none, 0, 0, true, false, none, false, 0, ⟨18, 0, 0, 0⟩, 0⟩, 0, 0, true⟩, 5, 0, 10, [30], 30, 0, 0, 0, [], [], [],
     0, [], [], [], [], ⟨true, false, 0, 0, none, 0, none, false, 0, 8⟩⟩ : CWork)
   (s.ce 0).cur = some 0 ∧ tget? (s.cx 0).work (s.cTile 0 0) = some w ∧ w.row < s.cRows 0 ∧ s.cClass 0 ≠ 0 ∧ s.domUp 8 = true ∧
     s.cWhole 0 = false ∧ s.rowOk 0 (s.cTile 0 0) w (s.cAllowance 0 w) (⟨[[0, 0, 1, 64], [0, 0, 1, 66], [0, 0, 1, 68]], [0, 0, 1,
     40] ++ List.replicate 30 7, [], List.replicate 4 (3, 3), [], []⟩ : SliceOut) (⟨[[0, 0, 1, 64], [0, 0, 1, 66], [0, 0, 1, 68]],
     [0, 0, 1, 40] ++ List.replicate 2 7, [], List.replicate 4 (3, 3), [], []⟩ : SliceOut) = true ∧ w.pic.src.rcv.mode = 2 ∧
     s.cAllowance 0 w < 34) ∧
  (let s : State := (((booted [(Adr.COD_C_CTL 0, 1 + 4),(Adr.COD_C_GEOM 0, 256 + 65536 * 64),(Adr.COD_C_IO 0, 9),(Adr.QF_Q_CFG 9,
     3),(Adr.QF_Q_STORE 9, 8)]).setCx 0 { Ctx.fresh with
     work := [(0, (⟨⟨⟨0, none, 0, 0, true, false, none, false, 0, ⟨1, 0, 0, 0⟩, 0⟩, 0, 0, true⟩, 1000, 0, 10, [30], 30, 0, 0, 0, [],
       [], [], 0, [], [], [], [], ⟨true, false, 0, 0, none, 0, none, false, 0, 8⟩⟩ : CWork))] }).setCe 0 { CEngine.fresh with
     cur := some 0 })
   let w := (⟨⟨⟨0, none, 0, 0, true, false, none, false, 0, ⟨1, 0, 0, 0⟩, 0⟩, 0, 0, true⟩, 1000, 0, 10, [30], 30, 0, 0, 0, [], [],
     [], 0, [], [], [], [], ⟨true, false, 0, 0, none, 0, none, false, 0, 8⟩⟩ : CWork)
   (s.ce 0).cur = some 0 ∧ tget? (s.cx 0).work (s.cTile 0 0) = some w ∧ w.row < s.cRows 0 ∧ s.cClass 0 ≠ 0 ∧ s.domUp 8 = true ∧
     s.cWhole 0 = false ∧ s.rowOk 0 (s.cTile 0 0) w (s.cAllowance 0 w) (⟨[[0, 0, 1, 64], [0, 0, 1, 66], [0, 0, 1, 68]], [0, 0, 1,
     40] ++ List.replicate 3 7, [], List.replicate 4 (3, 3), [], []⟩ : SliceOut) (⟨[[0, 0, 1, 64], [0, 0, 1, 66], [0, 0, 1, 68]],
     [0, 0, 1, 40] ++ List.replicate 2 7, [], List.replicate 4 (3, 3), [], []⟩ : SliceOut) = true) ∧
  (let s : State := (((booted [(Adr.COD_C_CTL 0, 1 + 4),(Adr.COD_C_GEOM 0, 256 + 65536 * 64),(Adr.COD_C_IO 0, 9),(Adr.QF_Q_CFG 9,
     3),(Adr.QF_Q_STORE 9, 8)]).setCx 0 { Ctx.fresh with
     work := [(0, (⟨⟨⟨0, none, 0, 0, true, false, none, false, 0, ⟨0, 0, 0, 0⟩, 0⟩, 0, 0, true⟩, 1000, 1, 10, [30], 30, 0, 0, 0, [],
       [], [], 0, [], [], [], [], ⟨true, false, 0, 0, none, 0, none, false, 0, 8⟩⟩ : CWork))], picNum := 65535 }).setCe 0 {
       CEngine.fresh with
     cur := some 0 })
   let w := (⟨⟨⟨0, none, 0, 0, true, false, none, false, 0, ⟨0, 0, 0, 0⟩, 0⟩, 0, 0, true⟩, 1000, 1, 10, [30], 30, 0, 0, 0, [], [],
     [], 0, [], [], [], [], ⟨true, false, 0, 0, none, 0, none, false, 0, 8⟩⟩ : CWork)
   (s.ce 0).cur = some 0 ∧ s.cDec 0 = false ∧ (s.cx 0).work = [(s.cTile 0 0, w)] ∧ s.cRows 0 ≤ w.row ∧ (s.ce 0).aside = none ∧ (s.ce
     0).ready = [] ∧ (s.cx 0).code = [] ∧ (s.cx 0).goTo = none) ∧
  (let s : State := (booted [(Adr.COD_C_CTL 0, 1),(Adr.SEQ_L_CTL 3, 0x10009)])
   s.cEn 0 = true ∧ s.cClass 0 = 0 ∧ s.roomAt 4) :=
  ⟨by decide +kernel, by decide +kernel, by decide +kernel, by decide +kernel, by decide +kernel, by decide +kernel⟩

theorem witness_FacetPlayback :
  (let s : State := ((booted [(Adr.FCT_P_CTL 0, 1),(Adr.FCT_P_IO 0, 9),(Adr.QF_Q_CFG 9, 3 + 32 * 1),(Adr.QF_Q_STORE 9,
     8),(Adr.FCT_P_STG_CTL 0, 2 + 256 * 1)]).setQueue 9 { Queue.fresh with
     tail := 64, words := [mkWord [7, 0, 0, 0, 0, 0, 0, 0, 0, 0, 0, 0, 32, 0, 0, 0] false, mkWord [1] false], headEnd := 2, midEnd
       := 2, pkts := [(⟨0, 0, 64, 0, 64, none, .none, true, false, false, false, 0, 0⟩ : Pkt)], seq := 1 })
   let k := (⟨0, 0, 64, 0, 64, none, .none, true, false, false, false, 0, 0⟩ : Pkt)
   let l : List Byte := (mkWord [7, 0, 0, 0, 0, 0, 0, 0, 0, 0, 0, 0, 32, 0, 0, 0] false).data ++ (mkWord [1] false).data
   s.pEn 0 = true ∧ (s.readPkt (s.pInq 0)).1 = some (k, l, false) ∧ (s.ps 0).closed.contains (leNat (l.take 4)) = false ∧ ((s.ps
     0).stg.find? fun g => g.number = leNat (l.take 4) && !g.closed) = none ∧ s.freeStg 0 = some 0) ∧
  (let s : State := ((booted [(Adr.FCT_P_CTL 0, 1),(Adr.FCT_P_IO 0, 9),(Adr.QF_Q_CFG 9, 3 + 32 * 1),(Adr.QF_Q_STORE 9,
     8),(Adr.FCT_P_STG_CTL 0, 2 + 256 * 1)]).setPs 0 { PStream.fresh with
     opened := 5, ticks := 5, stg := [(⟨4, 7, 0, [(0, 64)], [], 3, false, none, []⟩ : Stg)] })
   let g := (⟨4, 7, 0, [(0, 64)], [], 3, false, none, []⟩ : Stg)
   s.pEn 0 = true ∧ ((s.ps 0).stg.find? fun h => h.number = 7 && !h.closed) = some g ∧ g.first + 2 ≤ (s.ps 0).ticks) ∧
  (let s : State := ((booted [(Adr.FCT_P_CTL 0, 1),(Adr.FCT_P_IO 0, 9),(Adr.QF_Q_CFG 9, 3 + 32 * 1),(Adr.QF_Q_STORE 9,
     8),(Adr.FCT_P_STG_CTL 0, 2 + 256 * 1)]).setPs 0 { PStream.fresh with
     opened := 5, ticks := 5, stg := [(⟨4, 7, 0, [(0, 64)], [], 3, true, some 1, [0]⟩ : Stg)] })
   let g := (⟨4, 7, 0, [(0, 64)], [], 3, true, some 1, [0]⟩ : Stg)
   s.pEn 0 = true ∧ ((s.ps 0).stg.find? fun h => h.closed && h.out.isSome && h.bands.length = s.stgBands 0 h) = some g) :=
  ⟨by decide +kernel, by decide +kernel, by decide +kernel⟩

theorem witness_H265Playback :
  (let s : State := ((booted [(Adr.COD_C_CTL 0, 3),(Adr.COD_C_IO 0, 9),(Adr.COD_C_SEI 0, 0x1000),(Adr.QF_Q_CFG 9, 3 + 32 *
     2),(Adr.QF_Q_STORE 9, 8)]).setQueue 9 { Queue.fresh with
     tail := 32, words := [mkWord [0, 0, 0, 0x09, 1] false], headEnd := 1, midEnd := 1, pkts := [(⟨0, 0, 32, 0, 32, none, .none,
       true, false, false, false, 0, 0⟩ : Pkt)], seq := 1 })
   let k := (⟨0, 0, 32, 0, 32, none, .none, true, false, false, false, 0, 0⟩ : Pkt)
   let l : List Byte := (mkWord [0, 0, 0, 0x09, 1] false).data
   let n := (⟨true, true, true, false⟩ : NalInfo)
   s.cEn 0 = true ∧ s.cDec 0 = true ∧ (s.readPkt (s.cQueue 0)).1 = some (k, l, false) ∧ s.cPkg 0 = true ∧ (l.getD 3 0).toNat / 16 %
     2 = 0 ∧ (l.getD 3 0).toNat / 2 % 2 = 0 ∧ (s.cx 0).au = none ∧ (n.slice && n.skip) = false) ∧
  (let s : State := ((booted [(Adr.COD_C_CTL 0, 3),(Adr.COD_C_IO 0, 9),(Adr.COD_C_SEI 0, 0x1000),(Adr.QF_Q_CFG 9, 3 + 32 *
     2),(Adr.QF_Q_STORE 9, 8)]).setCx 0 { Ctx.fresh with ticks := 7, waitIrap := false, au := some ⟨3, 1, 0, true, 5, false⟩ })
   let a : AuOpen := ⟨3, 1, 0, true, 5, false⟩
   s.cEn 0 = true ∧ s.cDec 0 = true ∧ (s.cx 0).au = some a ∧ a.first + 2 ≤ (s.cx 0).ticks ∧ (s.cx 0).waitIrap = false ∧ 0 < a.slices
     ∧ a.drop = false) ∧
  (let s : State := ((booted [(Adr.COD_C_CTL 0, 3),(Adr.COD_C_IO 0, 9),(Adr.COD_C_SEI 0, 0x1000),(Adr.QF_Q_CFG 9, 3 + 32 *
     2),(Adr.QF_Q_STORE 9, 8)]).setCx 0 { Ctx.fresh with ticks := 7, waitIrap := false, au := some ⟨3, 2, 1, false, 5, false⟩ })
   let a : AuOpen := ⟨3, 2, 1, false, 5, false⟩
   s.cEn 0 = true ∧ s.cDec 0 = true ∧ (s.cx 0).au = some a ∧ a.first + 2 ≤ (s.cx 0).ticks ∧ (s.cx 0).waitIrap = false ∧ 0 < a.slices
     ∧ a.drop = false) ∧
  (let s : State := (((booted [(Adr.COD_C_CTL 0, 3),(Adr.COD_C_IO 0, 9),(Adr.COD_C_SEI 0, 0x1000),(Adr.QF_Q_CFG 9, 3 + 32 *
     2),(Adr.QF_Q_STORE 9, 8),(Adr.COD_D_CTL 0, 5 * 256 + 8 + 65536 * 0x1234),(Adr.XCV_CTL 1, 1)]).setCx 0 { Ctx.fresh with
     taint := true, episode := some 5 }).setXg 1 { XGroup.fresh with st := 6, ctl := List.replicate 15 [] })
   s.cEn 0 = true ∧ s.cDec 0 = true ∧ (s.cx 0).taint = true ∧ (s.cx 0).episode = some 5 ∧ s.fld (Adr.COD_D_CTL 0) 8 8 ≤ 5 ∧ s.fld
     (Adr.COD_D_CTL 0) 3 2 = 1 ∧ s.ferryUp 1 = true ∧ (s.xg 1).ctl.length < 16) :=
  ⟨by decide +kernel, by decide +kernel, by decide +kernel, by decide +kernel⟩

theorem witness_QueuePackets :
  (let s : State := ((booted [(Adr.QF_Q_CFG 9, 3),(Adr.QF_Q_STORE 9, 2)]).setQueue 9 { Queue.fresh with
     tail := 64, words := [mkWord [] false, mkWord [] false], headEnd := 2, midEnd := 2 })
   s.qRefuse 9 = none ∧ (s.queue 9).resting = true ∧ ([13] : List Nat).all (fun p => mayEnqueue 9 p) = true ∧ least? (([13] : List
     Nat).filter fun p => !(s.queue 9).fenceWaits p) = some 13) ∧
  (let s : State := ((booted [(Adr.QF_Q_CFG 9, 3),(Adr.QF_Q_STORE 9, 2)]).setQueue 9 { Queue.fresh with
     tail := 64, words := [mkWord [] false, mkWord [] false], headEnd := 2, midEnd := 2 })
   s.qRefuse 9 = none ∧ (s.queue 9).resting = true ∧ ([13, 5, 14] : List Nat).all (fun p => mayEnqueue 9 p) = true ∧ least? (([13,
     5, 14] : List Nat).filter fun p => !(s.queue 9).fenceWaits p) = some 5) ∧
  (let s : State := ((booted [(Adr.QF_Q_CFG 9, 3),(Adr.QF_Q_STORE 9, 2)]).setQueue 9 { Queue.fresh with
     tail := 64, words := [mkWord [] false, mkWord [] false], headEnd := 2, midEnd := 2, lock := some (13, 64) })
   s.qRefuse 9 = none ∧ (s.queue 9).lock = some (13, 64) ∧ (s.queue 9).waiters = [] ∧ (s.queue 9).held = [] ∧ (s.queue 9).backlog =
     [] ∧ s.qNoSpill 9 = true ∧ (s.queue 9).tail % 32 = 0 ∧ s.qLimit 9 = 0 ∧ (s.queue 9).tail / 32 < (s.queue 9).base + 2 ^ 26 ∧
     (s.queue 9).words.length < s.qHead 9 ∧ (s.queue 9).openLen + 3 ≤ pktMax) ∧
  (let s : State := ((booted [(Adr.QF_Q_CFG 9, 3),(Adr.QF_Q_STORE 9, 2)]).setQueue 9 { Queue.fresh with
     tail := 65, words := List.replicate 3 (mkWord [1] false), headEnd := 3, midEnd := 3, lock := some (13, 64) })
   s.qRefuse 9 = none ∧ (s.queue 9).lock = some (13, 64) ∧ (s.queue 9).waiters = [] ∧ (s.queue 9).held = [] ∧ (s.queue 9).backlog =
     [] ∧ s.qNoSpill 9 = true ∧ 64 < (s.queue 9).tail) ∧
  (let s : State := { ((((booted [(Adr.QF_Q_CFG 9, 3),(Adr.QF_Q_STORE 9, 2),(Adr.DMC_G_CFG, 1),(Adr.BP_P_COUNT 2,
       100),(Adr.BP_P_OWN_LO 2, 0x10000)]).setDc 0 { DChan.fresh with up := true }).setPool 2 { Pool.fresh with next := 1 }).setQueue
       9 { Queue.fresh with
     tail := 96, words := [mkWord [] false, mkWord [] false, mkWord [2, 0, 0, 0] false], headEnd := 3, midEnd := 3, lock := some
       (10, 64) }) with
     dram := memWrite 0 [] 0x10000 [10] }
   let h := BitVec.ofNat 32 (leNat ((s.queue 9).openBytes.take 4))
   s.qRefuse 9 = none ∧ (s.queue 9).lock = some (10, 64) ∧ (s.queue 9).waiters = [] ∧ (s.queue 9).held = [] ∧ (s.queue 9).backlog =
     [] ∧ s.qNoSpill 9 = true ∧ 64 < (s.queue 9).tail ∧ (s.queue 9).tail - 64 ≤ 32 ∧ s.badHandle h = false ∧ ownReserved (s.owner h)
     = false ∧ s.owner h = producerReq 10 3 ∧ s.dramCode 10 (s.ownAddr h) 2 true = Code.done) :=
  ⟨by decide +kernel, by decide +kernel, by decide +kernel, by decide +kernel, by decide +kernel⟩

theorem witness_QueueNotices :
  (let s : State := ((booted [(Adr.QF_Q_CFG 9, 3),(Adr.QF_Q_STORE 9, 2)]).setQueue 9 { Queue.fresh with
     tail := 64, words := [mkWord [1] false, mkWord [2] false], headEnd := 2, midEnd := 2, pkts := [(⟨13, 0, 40, 0, 64, none, .none,
       false, false, false, false, 0, 0⟩ : Pkt)], seq := 65535 })
   let p := (⟨13, 0, 40, 0, 64, none, .none, false, false, false, false, 0, 0⟩ : Pkt)
   (9 : Nat) < 4096 ∧ s.portOf 9 = none ∧ (s.queue 9).pkts = [p] ∧ p.issued = false ∧ p.stop ≤ (s.queue 9).tail ∧ (s.queue
     9).waiters = [] ∧ (p.fence = .wr → s.portWaits (producerPort p.prod) = false)) ∧
  (let s : State := ((booted [(Adr.QF_Q_CFG 9, 3),(Adr.QF_Q_STORE 9, 2)]).setQueue 9 { Queue.fresh with
     tail := 64, words := [mkWord [1] false, mkWord [2] false], headEnd := 2, midEnd := 2, pkts := [(⟨13, 0, 40, 0, 64, none, .none,
       true, false, false, false, 0, 0⟩ : Pkt)], seq := 1 })
   let p := (⟨13, 0, 40, 0, 64, none, .none, true, false, false, false, 0, 0⟩ : Pkt)
   (s.queue 9).oldest = some p ∧ p.handle = none) ∧
  (let s : State := ((booted [(Adr.QF_Q_CFG 9, 3),(Adr.QF_Q_STORE 9, 2)]).setQueue 9 { Queue.fresh with
     tail := 64, read := 0, words := [mkWord [1] false, mkWord [2] false], headEnd := 2, midEnd := 2, pkts := [(⟨13, 0, 40, 0, 64,
       none, .none, true, true, false, false, 0, 0⟩ : Pkt)], seq := 1 })
   let p := (⟨13, 0, 40, 0, 64, none, .none, true, true, false, false, 0, 0⟩ : Pkt)
   (s.queue 9).current = some p ∧ s.readable (Adr.QF_Q_RDATA 9 7) ∧ s.qCons 9 = 0 ∧ s.qAutoRel 9 = false ∧ (s.queue 9).resting =
     true ∧ (s.queue 9).read / 32 < (s.queue 9).headEnd) ∧
  (let s : State := ((booted [(Adr.QF_Q_CFG 9, 3),(Adr.QF_Q_STORE 9, 2)]).setQueue 9 { Queue.fresh with
     tail := 64, read := 32, words := [mkWord [1] false, mkWord [2] false], headEnd := 2, midEnd := 2, pkts := [(⟨13, 0, 40, 0, 64,
       none, .none, true, true, false, false, 0, 0⟩ : Pkt)], seq := 1 })
   let p := (⟨13, 0, 40, 0, 64, none, .none, true, true, false, false, 0, 0⟩ : Pkt)
   (s.queue 9).current = some p ∧ s.readable (Adr.QF_Q_RDATA 9 7) ∧ s.qCons 9 = 0 ∧ s.qAutoRel 9 = false ∧ (s.queue 9).resting =
     true ∧ (s.queue 9).read / 32 < (s.queue 9).headEnd) :=
  ⟨by decide +kernel, by decide +kernel, by decide +kernel, by decide +kernel⟩

theorem witness_QueuePositions :
  (let s : State := ((booted [(Adr.QF_Q_CFG 9, 3),(Adr.QF_Q_STORE 9, 2)]).setQueue 9 { Queue.fresh with
     tail := 128, read := 96, rel := 32, words := List.replicate 3 (mkWord [1] false), headEnd := 4, midEnd := 4 })
   s.qRefuse 9 = none ∧ (s.queue 9).resting = true ∧ (s.queue 9).pkts = [] ∧ (s.queue 9).extend 96 = 96 ∧ 96 ≤ (s.queue 9).read ∧ 96
     ≤ (s.queue 9).tail) ∧
  (let s : State := ((booted [(Adr.QF_Q_CFG 9, 3),(Adr.QF_Q_STORE 9, 2)]).setQueue 9 { Queue.fresh with
     tail := 128, read := 128, rel := 0, words := List.replicate 4 (mkWord [1] false), headEnd := 4, midEnd := 4, pkts := [(⟨13, 0,
       40, 0, 64, none, .none, true, true, false, false, 0, 0⟩ : Pkt), (⟨13, 64, 64, 0, 128, none, .none, true, true, false, false,
       0, 0⟩ : Pkt)] })
   s.qRefuse 9 = none ∧ (s.queue 9).resting = true ∧ (s.queue 9).extend 64 = 64 ∧ 64 ≤ (s.queue 9).read ∧ ((s.queue 9).pkts.any fun
     p => p.taken && p.start = 64) = true) :=
  ⟨by decide +kernel, by decide +kernel⟩

theorem witness_QueueResets :
  (let s : State := ((booted [(Adr.QF_Q_CFG 9, 3),(Adr.QF_Q_STORE 9, 2)]).setQueue 9 { Queue.fresh with
     tail := 128, read := 128, rel := 0, words := List.replicate 4 (mkWord [1] false), headEnd := 4, midEnd := 4, pkts := [(⟨13, 0,
       40, 0, 64, none, .none, true, true, false, false, 0, 0⟩ : Pkt), (⟨13, 64, 64, 0, 128, none, .none, true, true, false, false,
       0, 0⟩ : Pkt)] })
   s.writable .pcie (Adr.QF_Q_OP 9) 2 ∧ s.qResetCode 9 = Code.done ∧ ∀ p ∈ (s.queue 9).pkts, p.handle = none) ∧
  (let s : State := ((booted [(Adr.QF_Q_CFG 9, 3),(Adr.QF_Q_STORE 9, 2)]).setQueue 9 { Queue.fresh with
     walk := true, held := [⟨5, 0, [1], false, .none⟩] })
   (s.queue 9).walk = true ∧ (s.queue 9).chain = [] ∧ (s.queue 9).waiters = [] ∧ s.win = []) ∧
  (let s : State := ((booted [(Adr.QF_Q_CFG 9, 3),(Adr.QF_Q_STORE 9, 2)]).setQueue 9 { Queue.fresh with
     tail := 128, words := List.replicate 4 (mkWord [1] false) })
   s.writable .mspi Adr.QF_RESET 1 ∧ s.anyRuns = false) ∧
  (let s : State := { ((booted [(Adr.QF_Q_CFG 9, 1),(Adr.QF_Q_STORE 9, 0x10102),(Adr.BP_P_COUNT 2, 100)]).setQueue 9 { Queue.fresh
       with
     tail := 320, words := List.replicate 7 (mkWord [1] false) ++ [mkWord [9] false, mkWord [8] false, mkWord [8] false], headEnd :=
       7, midEnd := 9, chain := [⟨mkHandle 2 5, 6, 3⟩] }) with
     dram := memWrite 0 (memWrite 0 [] 20480 (List.replicate 28 0 ++ leBytes 4 (crc32c (List.replicate 28 0)))) 20544 [9] }
   let a := 20544
   let c : Chain := ⟨mkHandle 2 5, 6, 3⟩
   chainAddr s 9 (s.queue 9).headEnd = some a ∧ ((s.queue 9).chain.find? fun c => c.first ≤ (s.queue 9).headEnd && (s.queue
     9).headEnd < c.first + c.n) = some c ∧ s.linkOk c = true ∧ 1 < (s.queue 9).midWords ∧ (s.queue 9).headWords < s.qHead 9 ∧
     (s.queue 9).waiters = [] ∧ (s.queue 9).backlog = [] ∧ (s.queue 9).stall = none ∧ parityOf (memRead 0 s.dram a 32) = ((s.queue
     9).word (s.queue 9).headEnd).parity) ∧
  (let s : State := ((booted [(Adr.QF_Q_CFG 9, 3),(Adr.QF_Q_STORE 9, 2),(Adr.QF_Q_OPRES 9, 256)]).setQueue 9 { Queue.fresh with
     walk := true })
   s.writable .mspi Adr.QF_RESET 1 ∧ s.anyRuns = false ∧ (s.queue 9).walk = true) :=
  ⟨by decide +kernel, by decide +kernel, by decide +kernel, by decide +kernel, by decide +kernel⟩

theorem witness_Buffers :
  (let s : State := { (((booted [(Adr.DMC_G_CFG, 1),(Adr.BP_P_COUNT 2, 100),(Adr.BP_P_CTL 2, 1),(Adr.BP_R_QUOTA 5,
       1000),(Adr.BP_P_OWN_LO 2, 0x10000)]).setDc 0 { DChan.fresh with up := true }).setPool 2 { Pool.fresh with
     cache := [mkHandle 2 7], next := 100 }) with
     force := [(Adr.BP_R_QUOTA 5, 1000)] }
   let p := { Pool.fresh with next := 100 }
   (2 : Nat) < 6 ∧ (5 : Nat) < 64 ∧ (s.pool 2).waiting = [] ∧ s.held 5 + poolUnits 2 ≤ s.quota 5 ∧ s.held 5 + poolUnits 2 < 2 ^ 24 ∧
     s.flag (Adr.BP_P_CTL 2) 0 = true ∧ 0 < s.poolFree 2 ∧ (s.pool 2).take 2 (s.poolCount 2) = some (mkHandle 2 7, p) ∧ s.dramCode
     10 (s.ownAddr (mkHandle 2 7)) 2 true = Code.done) ∧
  (let s : State := { ((booted [(Adr.DMC_G_CFG, 1),(Adr.BP_P_COUNT 2, 100),(Adr.BP_P_CTL 2, 1),(Adr.BP_R_QUOTA 5,
       1000),(Adr.BP_P_OWN_LO 2, 0x10000)]).setDc 0 { DChan.fresh with up := true }) with
     force := [(Adr.BP_R_QUOTA 5, 1000)] }
   let p := { Pool.fresh with next := 1 }
   (s.pool 2).take 2 (s.poolCount 2) = some (mkHandle 2 0, p) ∧ s.held 5 + poolUnits 2 ≤ s.quota 5 ∧ 0 < s.poolFree 2) ∧
  (let s : State := { (((booted [(Adr.DMC_G_CFG, 1),(Adr.BP_P_COUNT 2, 100),(Adr.BP_P_CTL 2, 1),(Adr.BP_R_QUOTA 5,
       1000),(Adr.BP_P_OWN_LO 2, 0x10000),(Adr.BP_R_HELD 5, 16)]).setDc 0 { DChan.fresh with up := true }).setPool 2 { Pool.fresh
       with
     next := 1 }) with
     dram := memWrite 0 [] 0x10000 [5] }
   let h := mkHandle 2 0
   s.badHandle h = false ∧ ownReserved 5 = false ∧ s.owner h = 5 ∧ (s.pool (handlePool h)).cache.length < 48 ∧ s.dramCode 10
     (s.ownAddr h) 2 true = Code.done) ∧
  (let s : State := { (((booted [(Adr.DMC_G_CFG, 1),(Adr.BP_P_COUNT 2, 100),(Adr.BP_P_CTL 2, 1),(Adr.BP_R_QUOTA 5,
       1000),(Adr.BP_P_OWN_LO 2, 0x10000),(Adr.BP_P_RING_LO 2, 0x20000)]).setDc 0 { DChan.fresh with up := true }).setPool 2 {
       Pool.fresh with
     next := 100, ringCount := 20, ringHead := 3, cache := (List.range 15).map (mkHandle 2) }) with
     dram := memWrite 0 [] 0x20000 ((List.range 20).flatMap fun i => leBytes 4 (mkHandle 2 i).toNat) }
   (2 : Nat) < 6 ∧ s.refillDue 2 = true ∧ (s.pool 2).waiting = []) ∧
  (let s : State := (booted [(Adr.DMC_G_CFG, 1),(Adr.BP_P_COUNT 2, 100),(Adr.BP_P_CTL 2, 1),(Adr.BP_R_QUOTA 5,
     1000),(Adr.BP_P_OWN_LO 2, 0x10000)])
   s.writable .pcie Adr.BP_H_ALLOC (2) ∧ s.flag Adr.BP_H_RES 8 = false ∧ askPool ⟨13, bit (2) 3, if bit (2) 3 then bits (2) 8 19
     else bits (2) 0 3⟩ = .ok 2) ∧
  (let s : State := (booted [(Adr.DMC_G_CFG, 1),(Adr.BP_P_COUNT 2, 100),(Adr.BP_P_CTL 2, 1),(Adr.BP_R_QUOTA 5,
     1000),(Adr.BP_P_OWN_LO 2, 0x10000)])
   s.writable .pcie Adr.BP_H_ALLOC (8 + 256 * 4096) ∧ s.flag Adr.BP_H_RES 8 = false ∧ askPool ⟨13, bit (8 + 256 * 4096) 3, if bit (8
     + 256 * 4096) 3 then bits (8 + 256 * 4096) 8 19 else bits (8 + 256 * 4096) 0 3⟩ = .ok 2) ∧
  (let s : State := (booted [(Adr.DMC_G_CFG, 1),(Adr.BP_P_COUNT 2, 100),(Adr.BP_P_CTL 2, 1),(Adr.BP_R_QUOTA 5,
     1000),(Adr.BP_P_OWN_LO 2, 0x10000)])
   s.writable .pcie Adr.BP_H_ALLOC (8 + 256 * 262144) ∧ s.flag Adr.BP_H_RES 8 = false ∧ askPool ⟨13, bit (8 + 256 * 262144) 3, if
     bit (8 + 256 * 262144) 3 then bits (8 + 256 * 262144) 8 19 else bits (8 + 256 * 262144) 0 3⟩ = .ok 5) ∧
  (let s : State := { (((booted [(Adr.DMC_G_CFG, 1),(Adr.BP_P_COUNT 2, 100),(Adr.BP_P_CTL 2, 1),(Adr.BP_R_QUOTA 5,
       1000),(Adr.BP_P_OWN_LO 2, 0x10000),(Adr.BP_R_HELD 13, 16)]).setDc 0 { DChan.fresh with up := true }).setPool 2 { Pool.fresh
       with
     next := 1 }) with
     dram := memWrite 0 [] 0x10000 [13] }
   s.writable .pcie Adr.BP_H_FREE 2 ∧ s.flag Adr.BP_H_FREE_RES 8 = false ∧ s.badHandle 2 = false ∧ s.owner 2 = 13 ∧ s.dramCode 10
     (s.ownAddr 2) 2 true = Code.done ∧ (s.pool (handlePool 2)).cache.length < 48) ∧
  (let s : State := (booted [(Adr.DMC_G_CFG, 1),(Adr.BP_P_COUNT 2, 100),(Adr.BP_P_CTL 2, 1),(Adr.BP_R_QUOTA 5,
     1000),(Adr.BP_P_OWN_LO 2, 0x10000)])
   s.writable .pcie Adr.BP_H_FREE 7 ∧ s.flag Adr.BP_H_FREE_RES 8 = false ∧ s.badHandle 7 = true) ∧
  (let s : State := (booted [(Adr.DMC_G_CFG, 1),(Adr.BP_P_COUNT 2, 100),(Adr.BP_P_CTL 2, 1),(Adr.BP_R_QUOTA 5,
     1000),(Adr.BP_P_OWN_LO 2, 0x10000),(Adr.BP_P_MINFREE 5, 3)])
   (5 : Nat) < 6 ∧ s.readable (Adr.BP_P_MINFREE 5)) :=
  ⟨by decide +kernel, by decide +kernel, by decide +kernel, by decide +kernel, ⟨by decide +kernel, by decide +kernel, rfl⟩, ⟨by
    decide +kernel, by decide +kernel, rfl⟩, ⟨by decide +kernel, by decide +kernel, rfl⟩, by decide +kernel, by decide +kernel, by
    decide +kernel⟩

theorem witness_DramAccesses :
  (let s : State := ((booted [(Adr.DMC_G_CFG, 1)]).setDc 0 { DChan.fresh with up := true })
   (3 : Nat) < 14 ∧ s.nCh ≠ 0 ∧ s.dramCode 3 100 [1, 2, 3].length true = Code.done) ∧
  (let s : State := ((booted [(Adr.DMC_G_CFG, 1)]).setDc 0 { DChan.fresh with up := true })
   (3 : Nat) < 14 ∧ s.nCh ≠ 0 ∧ s.dramCode 3 (2 ^ 40) [1, 2, 3].length true = Code.badTarget) ∧
  (let s : State := { ((booted [(Adr.DMC_G_CFG, 1)]).setDc 0 { DChan.fresh with
     up := true, reads := [(⟨3, 3, [0, 1, 4], 0⟩ : DReq)], rr := 2 }) with
     dram := [(96, 7), (100, 9)] }
   s.nCh ≠ 0 ∧ s.chanOn 0 = true ∧ s.dc 0 = { s.dc 0 with reads := [(⟨3, 3, [0, 1, 4], 0⟩ : DReq)], writes := [], wait := [] } ∧ 0 <
     s.fld (Adr.DMC_SCHED 0) 0 5) ∧
  (let s : State := ((booted [(Adr.DMC_G_CFG, 1)]).setDc 0 { DChan.fresh with
     up := true, writes := [(⟨3, 3, [0, 1, 4], 0⟩ : DReq)] })
   s.nCh ≠ 0 ∧ s.chanOn 0 = true ∧ s.dc 0 = { s.dc 0 with reads := [], writes := [(⟨3, 3, [0, 1, 4], 0⟩ : DReq)], wait := [] } ∧ 0 <
     s.fld (Adr.DMC_SCHED 0) 0 5) :=
  ⟨by decide +kernel, by decide +kernel, by decide +kernel, by decide +kernel⟩

theorem witness_ChannelUpkeep :
  (let s : State := ((booted [(Adr.DMC_G_CFG, 1)]).setDc 0 { DChan.fresh with
     up := true, reads := [(⟨3, 3, [0, 1, 4], 0⟩ : DReq)], owed := 2 })
   s.chanOn 0 = true ∧ (s.dc 0).sr = false ∧ (s.dc 0).empty = false ∧ (s.dc 0).owed + 1 < s.fld (Adr.DMC_REF_CTL 0) 0 4) ∧
  (let s : State := ((booted [(Adr.DMC_G_CFG, 1)]).setDc 0 { DChan.fresh with up := true, owed := 2 })
   s.chanOn 0 = true ∧ (s.dc 0).sr = false ∧ (s.dc 0).empty = true ∧ s.roomAt 36) ∧
  (let s : State := ((booted [(Adr.DMC_G_CFG, 1),(Adr.DMC_PWR_CTL 0, 0x10001)]).setDc 0 { DChan.fresh with up := true })
   s.chanOn 0 = true ∧ (s.dc 0).empty = true ∧ s.fld (Adr.DMC_PWR_CTL 0) 0 8 ≠ 0) ∧
  (let s : State := ((booted [(Adr.DMC_G_CFG, 1),(Adr.DMC_PWR_CTL 0, 0x10001)]).setDc 0 { DChan.fresh with up := true, owed := 3 })
   s.chanOn 0 = true ∧ (s.dc 0).empty = true ∧ s.fld (Adr.DMC_PWR_CTL 0) 16 16 ≠ 0 ∧ ((List.range 16).any fun r => bit (s.rgn r).2.2
     0 && bit (s.rgn r).2.2 2) = false) ∧
  (let s : State := ((booted [(Adr.DMC_G_CFG, 1)]).setDc 0 { DChan.fresh with up := true, rate := 2 })
   s.chanOn 0 = true ∧ (2 : Nat) < 3 ∧ 2 ≤ (s.dc 0).rate) ∧
  (let s : State := ((booted [(Adr.DMC_G_CFG, 1),(Adr.DMC_G_RGN_SIZE 0, 1),(Adr.DMC_G_RGN_ATTR 0, 3),(Adr.DMC_G_SCRUB, 1)]).setDc 0
     { DChan.fresh with up := true, scrub := 5 })
   let n : Nat := s.eccSpans.foldl (fun a x => a + x.2) 0
   s.chanOn 0 = true ∧ n = s.eccSpans.foldl (fun a x => a + x.2) 0 ∧ n ≠ 0 ∧ s.fld Adr.DMC_G_SCRUB 0 16 ≠ 0) :=
  ⟨by decide +kernel, by decide +kernel, by decide +kernel, by decide +kernel, by decide +kernel, by decide +kernel⟩

theorem witness_ChannelRetirement :
  (let s : State := (((booted [(Adr.DMC_G_CFG, 1)]).setDc 3 { DChan.fresh with up := true, out := false, cand := [5] }).setDk 0 ⟨1,
     3, 77⟩)
   (3 : Nat) < 16 ∧ s.inRetire 3 1 = true) ∧
  (let s : State := (((booted [(Adr.DMC_G_CFG, 1)]).setDc 3 { DChan.fresh with up := false, out := true, cand := [5] }).setDk 0 ⟨2,
     3, 77⟩)
   (3 : Nat) < 16 ∧ s.inRetire 3 2 = true) ∧
  (let s : State := (((booted [(Adr.DMC_G_CFG, 1)]).setDc 3 { DChan.fresh with up := false, out := true, cand := [5] }).setDk 0 ⟨4,
     3, 77⟩)
   (3 : Nat) < 16 ∧ s.inRetire 3 4 = true) :=
  ⟨by decide +kernel, by decide +kernel, by decide +kernel⟩

theorem witness_UnitChoice :
  (let s : State := ((booted [(Adr.XCV_CTL 0, 1),(Adr.SCH_P_CTL 0, 1),(Adr.QF_Q_CFG 9, 3 + 32),(Adr.QF_Q_STORE 9, 8),(Adr.XCV_TXCH 0
     4, 0x8009)]).setXg 0 { XGroup.fresh with st := 6, w := 4, txSeq := 65535, tx := [(4, ⟨100, 0⟩)], ctl := [[1, 2], [3]] })
   (0 : Nat) < 2 * s.nXcv ∧ (s.sp 0).free ≤ (s.at_ 5000).clk.now ∧ s.servedBy 0 = [] ∧ s.isFerry 0 = true ∧ s.portReady 0 = true ∧
     (s.xg 0).ctl = [1, 2] :: [[3]]) ∧
  (let s : State := ((((booted [(Adr.XCV_CTL 0, 1),(Adr.SCH_P_CTL 0, 1),(Adr.QF_Q_CFG 9, 3 + 32),(Adr.QF_Q_STORE 9, 8),(Adr.XCV_TXCH
     0 4, 0x8009)]).setXg 0 { XGroup.fresh with st := 6, w := 4, txSeq := 65535, tx := [(4, ⟨100, 0⟩)] }).setQueue 9 { Queue.fresh
       with
     tail := 64, words := [mkWord [1] false, mkWord [2] false], headEnd := 2, midEnd := 2, pkts := [(⟨13, 0, 40, 7, 64, none, .none,
       true, false, false, false, 0, 0⟩ : Pkt)], seq := 1 }).setSq 9 { SQueue.fresh with back := true })
   let v := (s.at_ 5000).setSp 0 { s.sp 0 with cls := 3 }
   s.servedBy 0 = [9] ∧ (s.sq 9).back = true ∧ (s.sp 0).commit = none ∧ (s.isFerry 0 = true → (s.xg 0).ctl = []) ∧ v.eligible 0 9
     v.clk.now = true ∧ (v.nextUnit 0 9).isSome = true ∧ (s.sp 0).free ≤ v.clk.now) :=
  ⟨by decide +kernel, by decide +kernel⟩

theorem witness_EgressLists :
  (let s : State := { ((booted [(Adr.XCV_CTL 0, 1),(Adr.SCH_P_CTL 0, 1),(Adr.QF_Q_CFG 9, 3 + 32),(Adr.QF_Q_STORE 9, 8),(Adr.XCV_TXCH
       0 4, 0x8009)]).setQueue 9 { Queue.fresh with
     tail := 64, words := [mkWord [1] false, mkWord [2] false], headEnd := 2, midEnd := 2, pkts := [(⟨13, 0, 40, 7, 64, none, .none,
       true, false, false, false, 0, 0⟩ : Pkt)], seq := 1 }) with
     sch := ⟨[], [(9, { SQueue.fresh with back := true, bal := -1000, wheel := some 4000 })]⟩, force := [(Adr.SCH_Q_RATE 9,
       0x80000000 + 10000000), (Adr.SCH_Q_BURST 9, 5000)] }
   let x := { SQueue.fresh with back := true, bal := -1000, wheel := some 4000 }
   s.sch.queues = [(9, x)] ∧ x.wheel = some 4000 ∧ 4000 ≤ (s.at_ 5000).clk.now ∧ 0 ≤ (s.at_ 5000).balanceAt 9 (s.at_ 5000).clk.now) ∧
  (let s : State := ((booted [(Adr.XCV_CTL 0, 1),(Adr.SCH_P_CTL 0, 1),(Adr.QF_Q_CFG 9, 3 + 32),(Adr.QF_Q_STORE 9, 8),(Adr.XCV_TXCH 0
     4, 0x8009)]).setSp 0 { SPort.fresh with commit := some 9 })
   (s.sp 0).commit = some 9 ∧ (s.at_ 5000).eligible 0 9 (s.at_ 5000).clk.now = false) ∧
  (let s : State := (booted [(Adr.XCV_CTL 0, 1),(Adr.SCH_P_CTL 0, 1),(Adr.QF_Q_CFG 9, 3 + 32),(Adr.QF_Q_STORE 9, 8),(Adr.XCV_TXCH 0
     4, 0x8009)])
   ((s.sp 0).commit.all fun q => (s.at_ 5000).eligible 0 q (s.at_ 5000).clk.now) = true) ∧
  (let s : State := (booted [(Adr.XCV_CTL 0, 1),(Adr.SCH_P_CTL 0, 1),(Adr.QF_Q_CFG 9, 3 + 32),(Adr.QF_Q_STORE 9, 8),(Adr.XCV_TXCH 0
     4, 0x8009),(Adr.SCH_P_WIN_LEN 0 0 1, 10),(Adr.SCH_P_WIN_START 0 0 1, 70)])
   ((s.sp 0).commit.all fun q => (s.at_ 5000).eligible 0 q (s.at_ 5000).clk.now) = true ∧ s.windows 0 1 = [(4480, 5120)]) ∧
  (let s : State := ((booted [(Adr.XCV_CTL 0, 1),(Adr.SCH_P_CTL 0, 1),(Adr.QF_Q_CFG 9, 3 + 32),(Adr.QF_Q_STORE 9, 8),(Adr.XCV_TXCH 0
     4, 0x8009),(Adr.SCH_P_CTL 0, 3)]).setSp 0 { SPort.fresh with operCycle := 5000 })
   ((s.sp 0).commit.all fun q => (s.at_ 5000).eligible 0 q (s.at_ 5000).clk.now) = true) ∧
  (let s : State := ((booted [(Adr.XCV_CTL 0, 1),(Adr.SCH_P_CTL 0, 1),(Adr.QF_Q_CFG 9, 3 + 32),(Adr.QF_Q_STORE 9, 8),(Adr.XCV_TXCH 0
     4, 0x8009),(Adr.SCH_P_CL_CTL 0, 0x400 + 2),(Adr.SCH_P_CL_CYCLE 0, 5000)]).setSp 0 { SPort.fresh with swap := some 4000 })
   (s.sp 0).swap = some 4000 ∧ s.pendingList 0 = true ∧ 4000 ≤ (s.at_ 5000).ptpNow) ∧
  (let s : State := ((booted [(Adr.XCV_CTL 0, 1),(Adr.SCH_P_CTL 0, 1),(Adr.QF_Q_CFG 9, 3 + 32),(Adr.QF_Q_STORE 9, 8),(Adr.XCV_TXCH 0
     4, 0x8009),(Adr.SCH_P_CL_CTL 0, 0x400 + 2),(Adr.SCH_P_CL_CYCLE 0, 5000)]).setSp 0 { SPort.fresh with swap := some 4000 })
   s.pendingList 0 = true ∧ s.writable .pcie (Adr.SCH_P_CL_CTL 0) (BitVec.ofNat 32 (s.fld (Adr.SCH_P_CL_CTL 0) 0 6 + 512))) ∧
  (let s : State := (booted [(Adr.XCV_CTL 0, 1),(Adr.SCH_P_CTL 0, 1),(Adr.QF_Q_CFG 9, 3 + 32),(Adr.QF_Q_STORE 9, 8),(Adr.XCV_TXCH 0
     4, 0x8009),(Adr.SCH_P_CL_CTL 0, 1),(Adr.SCH_P_CL_CYCLE 0, 5000),(Adr.SCH_P_CL_IVL 0 1 0, 1000),(Adr.SCH_P_CL_IVL 0 1 1,
     1000),(Adr.SCH_P_CL_GATES 0 1 0, 7),(Adr.SCH_P_CL_GATES 0 1 1, 7)])
   s.pendingList 0 = false ∧ s.writable .pcie (Adr.SCH_P_CL_CTL 0) (BitVec.ofNat 32 (s.fld (Adr.SCH_P_CL_CTL 0) 0 6 + 256)) ∧
     s.commitCode 0 = Code.done) ∧
  (let s : State := (booted [(Adr.XCV_CTL 0, 1),(Adr.SCH_P_CTL 0, 1),(Adr.QF_Q_CFG 9, 3 + 32),(Adr.QF_Q_STORE 9, 8),(Adr.XCV_TXCH 0
     4, 0x8009)])
   s.pendingList 0 = false ∧ s.writable .pcie (Adr.SCH_P_CL_CTL 0) (BitVec.ofNat 32 (s.fld (Adr.SCH_P_CL_CTL 0) 0 6 + 256)) ∧
     s.commitCode 0 ≠ Code.done) :=
  by refine ⟨?_, ?_, ?_, ?_, ?_, ?_, ?_, ?_, ?_⟩ <;> decide +kernel

theorem witness_FerryPackets :
  (let s : State := ((booted [(Adr.XCV_CTL 0, 1)]).setXg 0 { XGroup.fresh with st := 6, w := 4, rxSeq := 5 })
   let k := (⟨BitVec.ofNat 48 (4 + 16 * 2 ^ 16 + 1 * 2 ^ 32 + 0 * 2 ^ 34 + 0 * 2 ^ 40 + 0 * 2 ^ 41), List.replicate 16 1,
     BitVec.ofNat 32 (crc32c (leBytes 6 (BitVec.ofNat 48 (4 + 16 * 2 ^ 16 + 1 * 2 ^ 32 + 0 * 2 ^ 34 + 0 * 2 ^ 40 + 0 * 2 ^
     41)).toNat ++ List.replicate 16 1))⟩ : FerryPkt)
   s.ferryUp 0 = true ∧ pktValid k = true ∧ pktCrcOk k = true ∧ sdiff 16 (pktSeq k) (s.xg 0).rxSeq < 0) ∧
  (let s : State := ((booted [(Adr.XCV_CTL 0, 1)]).setXg 0 { XGroup.fresh with st := 6, w := 4, rxSeq := 5 })
   let k := (⟨BitVec.ofNat 48 (5 + 16 * 2 ^ 16 + 1 * 2 ^ 32 + 0 * 2 ^ 34 + 0 * 2 ^ 40 + 0 * 2 ^ 41), List.replicate 16 1,
     BitVec.ofNat 32 (crc32c (leBytes 6 (BitVec.ofNat 48 (5 + 16 * 2 ^ 16 + 1 * 2 ^ 32 + 0 * 2 ^ 34 + 0 * 2 ^ 40 + 0 * 2 ^
     41)).toNat ++ List.replicate 16 1))⟩ : FerryPkt)
   s.ferryUp 0 = true ∧ pktValid k = true ∧ pktCrcOk k = true ∧ pktSeq k = (s.xg 0).rxSeq ∧ pktType k = 1 ∧ (k.payload.getD 0
     0).toNat = 1 ∧ k.payload.length = 16 ∧ s.hasEvent 0xD0 = true) ∧
  (let s : State := ((booted [(Adr.XCV_CTL 0, 1)]).setXg 0 { XGroup.fresh with st := 6, w := 4, rxSeq := 5 })
   let k := (⟨BitVec.ofNat 48 (5 + 16 * 2 ^ 16 + 0 * 2 ^ 32 + 63 * 2 ^ 34 + 1 * 2 ^ 40 + 1 * 2 ^ 41), List.replicate 16 1,
     BitVec.ofNat 32 (crc32c (leBytes 6 (BitVec.ofNat 48 (5 + 16 * 2 ^ 16 + 0 * 2 ^ 32 + 63 * 2 ^ 34 + 1 * 2 ^ 40 + 1 * 2 ^
     41)).toNat ++ List.replicate 16 1))⟩ : FerryPkt)
   s.ferryUp 0 = true ∧ pktValid k = true ∧ pktCrcOk k = true ∧ pktSeq k = (s.xg 0).rxSeq ∧ pktType k = 0 ∧ s.rxEn 0 (pktCh k) =
     false) ∧
  (let s : State := ((booted [(Adr.XCV_CTL 0, 1)]).setXg 0 { XGroup.fresh with st := 6, w := 4, rxSeq := 5 })
   let k := (⟨5, [1], 0⟩ : FerryPkt)
   s.ferryUp 0 = true ∧ (pktValid k && pktCrcOk k) = false ∧ (s.xg 0).nak = none) ∧
  (let s : State := ((booted [(Adr.XCV_CTL 0, 1)]).setXg 0 { XGroup.fresh with
     st := 6, w := 4, rxSeq := 5, txSeq := 1, retry := [⟨65534, none, 9, 0, 64, false, 4, 2⟩, ⟨65535, none, 9, 64, 70, true, 4, 1⟩,
       ⟨0, some [1], 0, 0, 0, true, 0, 0⟩], replays := 3 })
   s.ferryUp 0 = true ∧ ((s.xg 0).retry.filter fun e => sdiff 16 e.seq 65535 ≤ 0) ≠ [] ∧ sdiff 16 65535 (s.xg 0).txSeq < 0) ∧
  (let s : State := ((booted [(Adr.XCV_CTL 0, 1)]).setXg 0 { XGroup.fresh with
     st := 6, w := 4, rxSeq := 5, txSeq := 1, retry := [⟨65534, none, 9, 0, 64, false, 4, 2⟩, ⟨65535, none, 9, 64, 70, true, 4, 1⟩,
       ⟨0, some [1], 0, 0, 0, true, 0, 0⟩], replays := 0 })
   s.ferryUp 0 = true ∧ (s.xg 0).retry.head?.map (·.seq) = some 65534 ∧ (s.xg 0).replays < s.fld (Adr.XCV_LINK 0) 16 8) ∧
  (let s : State := ((booted [(Adr.XCV_CTL 0, 1)]).setXg 0 { XGroup.fresh with
     st := 6, w := 4, rxSeq := 5, txSeq := 1, retry := [⟨65534, none, 9, 0, 64, false, 4, 2⟩, ⟨65535, none, 9, 64, 70, true, 4, 1⟩,
       ⟨0, some [1], 0, 0, 0, true, 0, 0⟩], replays := 255 })
   s.ferryUp 0 = true ∧ (s.xg 0).retry.head?.map (·.seq) = some 65534 ∧ s.fld (Adr.XCV_LINK 0) 16 8 ≤ (s.xg 0).replays ∧ s.roomAt 24) :=
  by refine ⟨?_, ?_, ?_, ?_, ?_, ?_, ?_⟩ <;> decide +kernel

theorem witness_FerryCredits :
  (let s : State := ((booted [(Adr.XCV_CTL 0, 1),(Adr.XCV_RXCH 0 3, 0x108009)]).setXg 0 { XGroup.fresh with
     st := 6, rx := [(3, { RxChan.fresh with grown := 2 ^ 24 - 1 })] })
   s.ferryUp 0 = true ∧ s.rxEn 0 3 = true) ∧
  (let s : State := ((booted [(Adr.XCV_CTL 0, 1),(Adr.FCT_S_CTL 3, 1),(Adr.XCV_BC_CTL 0, 1)]).setXg 0 { XGroup.fresh with st := 6 })
   s.ferryUp 0 = true ∧ s.flag (Adr.FCT_S_CTL 3) 0 = true ∧ s.flag (Adr.XCV_BC_CTL 0) 0 = true) :=
  ⟨by decide +kernel, by decide +kernel⟩

theorem witness_EthernetPorts :
  (let s : State := (booted [(Adr.XCV_CTL 1, 3),(Adr.XCV_E_CTL 1 1, 1 + 4 + 65536 * 1500),(Adr.XCV_E_STAT 1 1, 1)])
   let fr : EthFrame := ⟨[0xFF, 0xFF, 0xFF, 0xFF, 0xFF, 0xFF, 1, 2, 3, 4, 5, 6, 0x08, 0x06, 1, 2, 3], false, 2, 0⟩
   s.ethOn 3 = true ∧ s.ethUp 3 = true ∧ fr.uncorr = 0 ∧ fr.fcsOk = false) ∧
  (let s : State := (booted [(Adr.XCV_CTL 1, 3),(Adr.XCV_E_CTL 1 1, 1 + 4 + 65536 * 1500),(Adr.XCV_E_STAT 1 1, 1)])
   let fr : EthFrame := ⟨[0xFF, 0xFF, 0xFF, 0xFF, 0xFF, 0xFF, 1, 2, 3, 4, 5, 6, 0x08, 0x06, 1, 2, 3], true, 2, 0⟩
   s.ethOn 3 = true ∧ s.ethUp 3 = true ∧ fr.uncorr = 0 ∧ fr.fcsOk = true ∧ (ethBody fr.bytes).1 ≠ 0x8808 ∧ fr.bytes.length + 4 ≤
     s.ethMtu 3 + 18 ∧ (fr.bytes.take 6 = s.ethMac 3 ∨ ethShared.contains (fr.bytes.take 6) = true) ∧ s.isPtp 3 fr.bytes = false ∧
     udpOf fr.bytes = none ∧ s.fld (Adr.XCV_E_RXQ 1 1) 0 12 = 0) ∧
  (let s : State := (booted [(Adr.XCV_CTL 1, 3),(Adr.XCV_E_CTL 1 1, 1 + 4 + 65536 * 1500),(Adr.XCV_E_STAT 1 1, 1),(Adr.XCV_E_RXQ 1
     1, 9),(Adr.QF_Q_CFG 9, 3),(Adr.QF_Q_STORE 9, 8)])
   let fr : EthFrame := ⟨[0xFF, 0xFF, 0xFF, 0xFF, 0xFF, 0xFF, 1, 2, 3, 4, 5, 6, 0x08, 0x06, 1, 2, 3] ++ List.replicate 0 9, true, 2,
     0⟩
   s.ethOn 3 = true ∧ s.ethUp 3 = true ∧ fr.uncorr = 0 ∧ fr.fcsOk = true ∧ (ethBody fr.bytes).1 ≠ 0x8808 ∧ fr.bytes.length + 4 ≤
     s.ethMtu 3 + 18 ∧ (fr.bytes.take 6 = s.ethMac 3 ∨ ethShared.contains (fr.bytes.take 6) = true) ∧ s.isPtp 3 fr.bytes = false ∧
     udpOf fr.bytes = none ∧ s.fld (Adr.XCV_E_RXQ 1 1) 0 12 = 9 ∧ s.qRefuse 9 = none ∧ (s.queue 9).resting = true ∧ (s.queue 9).pkts
     = [] ∧ (s.queue 9).tail % 32 = 0 ∧ s.qNoSpill 9 = true ∧ s.qLimit 9 = 0 ∧ 0 < ceilDiv fr.bytes.length 32 ∧ (s.queue
     9).words.length + ceilDiv fr.bytes.length 32 ≤ s.qHead 9 ∧ (s.queue 9).tail / 32 + ceilDiv fr.bytes.length 32 ≤ (s.queue
     9).base + 2 ^ 26) ∧
  (let s : State := (booted [(Adr.XCV_CTL 1, 3),(Adr.XCV_E_CTL 1 1, 1 + 4 + 65536 * 1500),(Adr.XCV_E_STAT 1 1, 1),(Adr.XCV_E_RXQ 1
     1, 9),(Adr.QF_Q_CFG 9, 3),(Adr.QF_Q_STORE 9, 8)])
   let fr : EthFrame := ⟨[0xFF, 0xFF, 0xFF, 0xFF, 0xFF, 0xFF, 1, 2, 3, 4, 5, 6, 0x08, 0x06, 1, 2, 3] ++ List.replicate 16 9, true,
     2, 0⟩
   s.ethOn 3 = true ∧ s.ethUp 3 = true ∧ fr.uncorr = 0 ∧ fr.fcsOk = true ∧ (ethBody fr.bytes).1 ≠ 0x8808 ∧ fr.bytes.length + 4 ≤
     s.ethMtu 3 + 18 ∧ (fr.bytes.take 6 = s.ethMac 3 ∨ ethShared.contains (fr.bytes.take 6) = true) ∧ s.isPtp 3 fr.bytes = false ∧
     udpOf fr.bytes = none ∧ s.fld (Adr.XCV_E_RXQ 1 1) 0 12 = 9 ∧ s.qRefuse 9 = none ∧ (s.queue 9).resting = true ∧ (s.queue 9).pkts
     = [] ∧ (s.queue 9).tail % 32 = 0 ∧ s.qNoSpill 9 = true ∧ s.qLimit 9 = 0 ∧ 0 < ceilDiv fr.bytes.length 32 ∧ (s.queue
     9).words.length + ceilDiv fr.bytes.length 32 ≤ s.qHead 9 ∧ (s.queue 9).tail / 32 + ceilDiv fr.bytes.length 32 ≤ (s.queue
     9).base + 2 ^ 26) ∧
  (let s : State := (booted [(Adr.XCV_CTL 1, 3),(Adr.XCV_E_CTL 1 1, 1 + 4 + 65536 * 1500),(Adr.XCV_E_STAT 1 1, 1)])
   s.ethOn 3 = true ∧ s.writable .pcie (Adr.XCV_TX_FIR 3 3) 0x180) :=
  ⟨by decide +kernel, by decide +kernel, by decide +kernel, by decide +kernel, by decide +kernel⟩

theorem witness_NetworkTime :
  (let s : State := { (booted [(Adr.PTP_CTL, 0),(Adr.PTP_SERVO, 0x640A20),(Adr.PTP_LOCK, 100)]) with
     ptp := { Ptp.fresh with master := some (0xAABB, 1), base := 100 } }
   let m := (⟨5000000, 0, 0, 7, 0xAABB, 1, false, 4000000, 500, ⟨128, 6, 0x21, 0x4E5D, 128, 0x1122334455667788, 0⟩, true⟩ : PtpMsg)
   s.ptpSrc = 0 ∧ m.profile = s.ptpProfile ∧ m.domain = s.fld Adr.PTP_CTL 8 8 ∧ s.fromMaster m = true ∧ m.twoStep = false) ∧
  (let s : State := { (booted [(Adr.PTP_CTL, 0),(Adr.PTP_SERVO, 0x640A20),(Adr.PTP_CTL, 0x40)]) with
     ptp := { Ptp.fresh with master := some (0xAABB, 1), base := 100 } }
   let m := (⟨5000000, 0, 0, 7, 0xAABB, 1, false, 400, 500, ⟨128, 6, 0x21, 0x4E5D, 128, 0x1122334455667788, 0⟩, true⟩ : PtpMsg)
   s.ptpSrc = 0 ∧ m.profile = s.ptpProfile ∧ m.domain = s.fld Adr.PTP_CTL 8 8 ∧ s.fromMaster m = true ∧ m.twoStep = false) ∧
  (let s : State := { (booted [(Adr.PTP_CTL, 0)]) with ptp := { Ptp.fresh with master := some (0xAABB, 1), base := 100 } }
   let m := (⟨5000000, 0, 0, 7, 0xAABB, 1, true, 4000000, 500, ⟨128, 6, 0x21, 0x4E5D, 128, 0x1122334455667788, 0⟩, true⟩ : PtpMsg)
   s.ptpSrc = 0 ∧ m.profile = s.ptpProfile ∧ m.domain = s.fld Adr.PTP_CTL 8 8 ∧ s.fromMaster m = true ∧ m.twoStep = true) ∧
  (let s : State := { (booted [(Adr.PTP_CTL, 0),(Adr.PTP_SERVO, 0x640A20)]) with
     ptp := { Ptp.fresh with master := some (0xAABB, 1), base := 100, sync := some (7, 5000000, 300) } }
   let m := (⟨5000000, 0, 0, 7, 0xAABB, 1, false, 4000000, 500, ⟨128, 6, 0x21, 0x4E5D, 128, 0x1122334455667788, 0⟩, true⟩ : PtpMsg)
   s.ptpSrc = 0 ∧ m.profile = s.ptpProfile ∧ m.domain = s.fld Adr.PTP_CTL 8 8 ∧ s.fromMaster m = true ∧ s.ptp.sync = some (m.seq,
     5000000, 300)) ∧
  (let s : State := { (booted [(Adr.PTP_CTL, 0)]) with ptp := { Ptp.fresh with st := 1 } }
   let m := (⟨5000000, 0, 0, 7, 0xAABB, 1, false, 4000000, 500, ⟨128, 6, 0x21, 0x4E5D, 128, 0x1122334455667788, 0⟩, true⟩ : PtpMsg)
   s.ptpSrc = 0 ∧ m.profile = s.ptpProfile ∧ m.domain = s.fld Adr.PTP_CTL 8 8 ∧ s.ptp.master = none ∧ s.ptp.foreign = []) ∧
  (let s : State := { (booted [(Adr.PTP_CTL, 0)]) with ptp := { Ptp.fresh with master := some (0xAABB, 1) } }
   let m := (⟨5000000, 0, 3, 7, 0xAABB, 1, false, 4000000, 500, ⟨128, 6, 0x21, 0x4E5D, 128, 0x1122334455667788, 0⟩, true⟩ : PtpMsg)
   s.ptpSrc = 0 ∧ ¬ (m.profile = s.ptpProfile ∧ m.domain = s.fld Adr.PTP_CTL 8 8)) ∧
  (let s : State := { (booted [(Adr.PTP_CTL, 0)]) with ptp := { Ptp.fresh with master := some (0xAABB, 1), base := 100 } }
   let m := (⟨5000000, 0, 0, 1, 0xAABB, 1, true, 4000000, 500, ⟨128, 6, 0x21, 0x4E5D, 128, 0x1122334455667788, 0⟩, true⟩ : PtpMsg)
   s.ptpSrc = 0 ∧ m.profile = s.ptpProfile ∧ m.domain = s.fld Adr.PTP_CTL 8 8 ∧ s.ptp.master = some (0xAABB, 1)) :=
  by refine ⟨?_, ?_, ?_, ?_, ?_, ?_, ?_⟩ <;> decide +kernel

theorem witness_NetworkDelay :
  (let s : State := { (booted [(Adr.PTP_CTL, 0)]) with
     ptp := { Ptp.fresh with master := some (0xAABB, 1), base := 100, t1 := 100, t2 := 900, req := some (7, 3000000) } }
   let m := (⟨5000000, 0, 0, 7, 0xAABB, 1, false, 4000000, 500, ⟨128, 6, 0x21, 0x4E5D, 128, 0x1122334455667788, 0⟩, true⟩ : PtpMsg)
   s.ptpSrc = 0 ∧ m.profile = s.ptpProfile ∧ m.domain = s.fld Adr.PTP_CTL 8 8 ∧ s.ptpProfile = 0 ∧ s.ptp.req = some (m.seq, 3000000)
     ∧ m.mine = true ∧ s.fromMaster m = true) ∧
  (let s : State := { (booted [(Adr.PTP_CTL, 0),(Adr.PTP_CTL, 4)]) with ptp := { Ptp.fresh with st := 1 } }
   let m := (⟨5000000, 1, 0, 7, 0xAABB, 1, false, 4000000, 500, ⟨128, 6, 0x21, 0x4E5D, 128, 0x1122334455667788, 0⟩, true⟩ : PtpMsg)
   s.ptpSrc = 0 ∧ m.profile = s.ptpProfile ∧ m.domain = s.fld Adr.PTP_CTL 8 8 ∧ s.ptpProfile = 1) ∧
  (let s : State := { (booted [(Adr.PTP_CTL, 0),(Adr.PTP_CTL, 4)]) with
     ptp := { Ptp.fresh with st := 1, req := some (7, 3000000) } }
   let m := (⟨5000000, 1, 0, 7, 0xAABB, 1, false, 4000000, 500, ⟨128, 6, 0x21, 0x4E5D, 128, 0x1122334455667788, 0⟩, true⟩ : PtpMsg)
   s.ptpSrc = 0 ∧ m.profile = s.ptpProfile ∧ m.domain = s.fld Adr.PTP_CTL 8 8 ∧ s.ptpProfile = 1 ∧ s.ptp.req = some (m.seq, 3000000)
     ∧ m.mine = true ∧ s.ptp.resp = none ∧ m.twoStep = false) ∧
  (let s : State := { (booted [(Adr.PTP_CTL, 0),(Adr.PTP_CTL, 4)]) with
     ptp := { Ptp.fresh with st := 1, req := some (7, 3000000) } }
   let m := (⟨5000000, 1, 0, 7, 0xAABB, 1, true, 4000000, 500, ⟨128, 6, 0x21, 0x4E5D, 128, 0x1122334455667788, 0⟩, true⟩ : PtpMsg)
   s.ptpSrc = 0 ∧ m.profile = s.ptpProfile ∧ m.domain = s.fld Adr.PTP_CTL 8 8 ∧ s.ptpProfile = 1 ∧ s.ptp.req = some (m.seq, 3000000)
     ∧ m.mine = true ∧ s.ptp.resp = none ∧ m.twoStep = true) ∧
  (let s : State := { (booted [(Adr.PTP_CTL, 0),(Adr.PTP_CTL, 4)]) with
     ptp := { Ptp.fresh with st := 1, req := some (7, 3000000), resp := some (7, 300) } }
   let m := (⟨5000000, 1, 0, 7, 0xAABB, 1, false, 4000000, 500, ⟨128, 6, 0x21, 0x4E5D, 128, 0x1122334455667788, 0⟩, true⟩ : PtpMsg)
   s.ptpSrc = 0 ∧ m.profile = s.ptpProfile ∧ m.domain = s.fld Adr.PTP_CTL 8 8 ∧ s.ptpProfile = 1 ∧ s.ptp.req = some (m.seq, 3000000)
     ∧ m.mine = true ∧ s.ptp.resp = some (7, 300)) ∧
  (let s : State := { (booted [(Adr.PTP_CTL, 0),(Adr.XCV_CTL 1, 3),(Adr.XCV_E_CTL 1 1, 1 + 4 + 65536 * 1500),(Adr.XCV_E_STAT 1 1,
       1),(Adr.PTP_CTL, 0x18)]) with
     ptp := { Ptp.fresh with master := some (0xAABB, 1), base := 100, nextSeq := 65535 } }
   let m := (⟨5000000, 0, 0, 7, 0xAABB, 1, false, 4000000, 500, ⟨128, 6, 0x21, 0x4E5D, 128, 0x1122334455667788, 0⟩, true⟩ : PtpMsg)
   s.ptpSrc = 0 ∧ m.profile = s.ptpProfile ∧ m.domain = s.fld Adr.PTP_CTL 8 8 ∧ s.ethUp s.ptpPort = true ∧ (s.ptpProfile = 1 ∨
     s.ptp.master.isSome = true)) ∧
  (let s : State := { (booted [(Adr.PTP_CTL, 0),(Adr.XCV_CTL 1, 3),(Adr.XCV_E_CTL 1 1, 1 + 4 + 65536 * 1500),(Adr.XCV_E_STAT 1 1,
       1),(Adr.PTP_CTL, 0x1C)]) with
     ptp := { Ptp.fresh with master := some (0xAABB, 1), base := 100, nextSeq := 65535 } }
   let m := (⟨5000000, 1, 0, 7, 0xAABB, 1, false, 4000000, 500, ⟨128, 6, 0x21, 0x4E5D, 128, 0x1122334455667788, 0⟩, true⟩ : PtpMsg)
   s.ptpSrc = 0 ∧ m.profile = s.ptpProfile ∧ m.domain = s.fld Adr.PTP_CTL 8 8 ∧ s.ethUp s.ptpPort = true ∧ (s.ptpProfile = 1 ∨
     s.ptp.master.isSome = true)) ∧
  (let s : State := { (booted [(Adr.PTP_CTL, 1)]) with ptp := { Ptp.fresh with base := 1600000000 } }
   s.ptpSrc = 1) ∧
  (let s : State := { (booted [(Adr.PTP_SET_NS, 500)]) with holdW := [(holdKey .pcie Adr.PTP_SET_S_LO, 77)] }
   s.writable .pcie Adr.PTP_SET_S_HI (5 ||| 0x80000000) ∧ s.readable Adr.PTP_TIME_NS) :=
  by refine ⟨?_, ?_, ?_, ?_, ?_, ?_, ?_, ?_, ?_⟩ <;> decide +kernel

theorem witness_DmaDescriptors :
  (let s : State := ((booted [(Adr.DMA_CTL, 1),(Adr.DMA_C_CTL 3, 1),(Adr.HST_PCIE_STAT, 0x81),(Adr.DMA_C_RING_CFG 3, 2)]).setDma 3 {
       DmaChan.fresh with
     head := 65534, tail := 65534 })
   (3 : Nat) < 32 ∧ s.writable .pcie (Adr.DMA_C_DB 3) 2 ∧ s.dmaSeq 3 = false ∧ ((2 : Word).toNat % 65536 + 65536 - (s.dch_ 3).head)
     % 65536 ≤ 2 ^ s.fld (Adr.DMA_C_RING_CFG 3) 0 4) ∧
  (let s : State := { ((booted [(Adr.DMA_CTL, 1),(Adr.DMA_C_CTL 3, 1),(Adr.HST_PCIE_STAT, 0x81)]).setDma 3 { DmaChan.fresh with
     cur := some [] }) with
     fuse := { Fuse.std with m := true } }
   s.writable .pcie (Adr.DMA_C_GO 3) 1 ∧ s.fuse.m = true ∧ s.dmaSeq 3 = false ∧ (s.dch_ 3).shd = false ∧ (s.dch_ 3).cur.isSome =
     true) ∧
  (let s : State := { (booted [(Adr.DMA_CTL, 1),(Adr.DMA_C_CTL 3, 1),(Adr.HST_PCIE_STAT, 0x81),(Adr.DMA_C_SHD 3 0, 2 + 8 +
       32),(Adr.DMA_C_SHD 3 1, 4),(Adr.DMC_G_CFG, 1),(Adr.DMA_C_SHD 3 4, 64)]) with
     fuse := { Fuse.std with m := true } }
   s.writable .pcie (Adr.DMA_C_GO 3) 1 ∧ s.dmaSeq 3 = false ∧ (s.dch_ 3).shd = false ∧ (s.dch_ 3).cur = none ∧ (s.dch_ 3).halted =
     false ∧ s.dmaOn 3 = true ∧ s.dmaCode 3 ((List.range 8).map fun i => s.z (Adr.DMA_C_SHD 3 i)) = Code.done ∧ s.dmaPreMet
     ((List.range 8).map fun i => s.z (Adr.DMA_C_SHD 3 i)) false = true) ∧
  (let s : State := ((booted [(Adr.DMA_CTL, 1),(Adr.DMA_C_CTL 3, 1),(Adr.HST_PCIE_STAT, 0x81),(Adr.DMA_C_RING_CFG 3, 2 + 16 *
     2),(Adr.DMC_G_CFG, 1),(Adr.SEQ_DMEM 0, ([BitVec.ofNat 32 (0 + 2 * 1 + 8 * 1 + 32 * 1 + 128 * 1 + 256 * 0), 3, 64, 0, 96, 0, 0,
     0] : List Word).getD 0 0 |>.toNat),(Adr.SEQ_DMEM 1, ([BitVec.ofNat 32 (0 + 2 * 1 + 8 * 1 + 32 * 1 + 128 * 1 + 256 * 0), 3, 64,
     0, 96, 0, 0, 0] : List Word).getD 1 0 |>.toNat),(Adr.SEQ_DMEM 2, ([BitVec.ofNat 32 (0 + 2 * 1 + 8 * 1 + 32 * 1 + 128 * 1 + 256
     * 0), 3, 64, 0, 96, 0, 0, 0] : List Word).getD 2 0 |>.toNat),(Adr.SEQ_DMEM 3, ([BitVec.ofNat 32 (0 + 2 * 1 + 8 * 1 + 32 * 1 +
     128 * 1 + 256 * 0), 3, 64, 0, 96, 0, 0, 0] : List Word).getD 3 0 |>.toNat),(Adr.SEQ_DMEM 4, ([BitVec.ofNat 32 (0 + 2 * 1 + 8 *
     1 + 32 * 1 + 128 * 1 + 256 * 0), 3, 64, 0, 96, 0, 0, 0] : List Word).getD 4 0 |>.toNat),(Adr.SEQ_DMEM 5, ([BitVec.ofNat 32 (0 +
     2 * 1 + 8 * 1 + 32 * 1 + 128 * 1 + 256 * 0), 3, 64, 0, 96, 0, 0, 0] : List Word).getD 5 0 |>.toNat),(Adr.SEQ_DMEM 6,
     ([BitVec.ofNat 32 (0 + 2 * 1 + 8 * 1 + 32 * 1 + 128 * 1 + 256 * 0), 3, 64, 0, 96, 0, 0, 0] : List Word).getD 6 0
     |>.toNat),(Adr.SEQ_DMEM 7, ([BitVec.ofNat 32 (0 + 2 * 1 + 8 * 1 + 32 * 1 + 128 * 1 + 256 * 0), 3, 64, 0, 96, 0, 0, 0] : List
     Word).getD 7 0 |>.toNat)]).setDma 3 { DmaChan.fresh with tail := 1 })
   s.fuse.m = false ∧ s.dmaOn 3 = true ∧ (s.dch_ 3).halted = false ∧ (s.dch_ 3).cur = none ∧ (s.dch_ 3).head ≠ (s.dch_ 3).tail ∧
     s.ringLoc 3 = 2 ∧ bit (dWord (s.dmemWords (s.ringAt 3) 16) 0) 0 = false ∧ s.roomAt 8) ∧
  (let s : State := ((booted [(Adr.DMA_CTL, 1),(Adr.DMA_C_CTL 3, 1),(Adr.HST_PCIE_STAT, 0x81),(Adr.DMA_C_RING_CFG 3, 2 + 16 *
     2),(Adr.DMC_G_CFG, 1),(Adr.SEQ_DMEM 0, ([BitVec.ofNat 32 (1 + 2 * 1 + 8 * 1 + 32 * 1 + 128 * 1 + 256 * 0), 3, 64, 0, 96, 0, 0,
     0] : List Word).getD 0 0 |>.toNat),(Adr.SEQ_DMEM 1, ([BitVec.ofNat 32 (1 + 2 * 1 + 8 * 1 + 32 * 1 + 128 * 1 + 256 * 0), 3, 64,
     0, 96, 0, 0, 0] : List Word).getD 1 0 |>.toNat),(Adr.SEQ_DMEM 2, ([BitVec.ofNat 32 (1 + 2 * 1 + 8 * 1 + 32 * 1 + 128 * 1 + 256
     * 0), 3, 64, 0, 96, 0, 0, 0] : List Word).getD 2 0 |>.toNat),(Adr.SEQ_DMEM 3, ([BitVec.ofNat 32 (1 + 2 * 1 + 8 * 1 + 32 * 1 +
     128 * 1 + 256 * 0), 3, 64, 0, 96, 0, 0, 0] : List Word).getD 3 0 |>.toNat),(Adr.SEQ_DMEM 4, ([BitVec.ofNat 32 (1 + 2 * 1 + 8 *
     1 + 32 * 1 + 128 * 1 + 256 * 0), 3, 64, 0, 96, 0, 0, 0] : List Word).getD 4 0 |>.toNat),(Adr.SEQ_DMEM 5, ([BitVec.ofNat 32 (1 +
     2 * 1 + 8 * 1 + 32 * 1 + 128 * 1 + 256 * 0), 3, 64, 0, 96, 0, 0, 0] : List Word).getD 5 0 |>.toNat),(Adr.SEQ_DMEM 6,
     ([BitVec.ofNat 32 (1 + 2 * 1 + 8 * 1 + 32 * 1 + 128 * 1 + 256 * 0), 3, 64, 0, 96, 0, 0, 0] : List Word).getD 6 0
     |>.toNat),(Adr.SEQ_DMEM 7, ([BitVec.ofNat 32 (1 + 2 * 1 + 8 * 1 + 32 * 1 + 128 * 1 + 256 * 0), 3, 64, 0, 96, 0, 0, 0] : List
     Word).getD 7 0 |>.toNat)]).setDma 3 { DmaChan.fresh with tail := 1 })
   s.fuse.m = false ∧ s.dmaOn 3 = true ∧ (s.dch_ 3).halted = false ∧ (s.dch_ 3).cur = none ∧ (s.dch_ 3).head ≠ (s.dch_ 3).tail ∧
     s.ringLoc 3 = 2 ∧ bit (dWord (s.dmemWords (s.ringAt 3) 16) 0) 0 = true ∧ s.dmaCode 3 (s.dmemWords (s.ringAt 3) 16) = Code.done
     ∧ s.dmaPreMet (s.dmemWords (s.ringAt 3) 16) false = true ∧ dSrcKind (s.dmemWords (s.ringAt 3) 16) ≠ 0) ∧
  (let s : State := ((booted [(Adr.DMA_CTL, 1),(Adr.DMA_C_CTL 3, 1),(Adr.HST_PCIE_STAT, 0x81),(Adr.DMA_C_RING_CFG 3, 2 + 16 *
     2),(Adr.DMC_G_CFG, 1),(Adr.SEQ_DMEM 0, ([BitVec.ofNat 32 (1 + 2 * 0 + 8 * 1 + 32 * 1 + 128 * 1 + 256 * 0), 3, 64, 0, 96, 0, 0,
     0] : List Word).getD 0 0 |>.toNat),(Adr.SEQ_DMEM 1, ([BitVec.ofNat 32 (1 + 2 * 0 + 8 * 1 + 32 * 1 + 128 * 1 + 256 * 0), 3, 64,
     0, 96, 0, 0, 0] : List Word).getD 1 0 |>.toNat),(Adr.SEQ_DMEM 2, ([BitVec.ofNat 32 (1 + 2 * 0 + 8 * 1 + 32 * 1 + 128 * 1 + 256
     * 0), 3, 64, 0, 96, 0, 0, 0] : List Word).getD 2 0 |>.toNat),(Adr.SEQ_DMEM 3, ([BitVec.ofNat 32 (1 + 2 * 0 + 8 * 1 + 32 * 1 +
     128 * 1 + 256 * 0), 3, 64, 0, 96, 0, 0, 0] : List Word).getD 3 0 |>.toNat),(Adr.SEQ_DMEM 4, ([BitVec.ofNat 32 (1 + 2 * 0 + 8 *
     1 + 32 * 1 + 128 * 1 + 256 * 0), 3, 64, 0, 96, 0, 0, 0] : List Word).getD 4 0 |>.toNat),(Adr.SEQ_DMEM 5, ([BitVec.ofNat 32 (1 +
     2 * 0 + 8 * 1 + 32 * 1 + 128 * 1 + 256 * 0), 3, 64, 0, 96, 0, 0, 0] : List Word).getD 5 0 |>.toNat),(Adr.SEQ_DMEM 6,
     ([BitVec.ofNat 32 (1 + 2 * 0 + 8 * 1 + 32 * 1 + 128 * 1 + 256 * 0), 3, 64, 0, 96, 0, 0, 0] : List Word).getD 6 0
     |>.toNat),(Adr.SEQ_DMEM 7, ([BitVec.ofNat 32 (1 + 2 * 0 + 8 * 1 + 32 * 1 + 128 * 1 + 256 * 0), 3, 64, 0, 96, 0, 0, 0] : List
     Word).getD 7 0 |>.toNat)]).setDma 3 { DmaChan.fresh with tail := 1 })
   s.fuse.m = false ∧ s.dmaOn 3 = true ∧ (s.dch_ 3).halted = false ∧ (s.dch_ 3).cur = none ∧ (s.dch_ 3).head ≠ (s.dch_ 3).tail ∧
     s.ringLoc 3 = 2 ∧ bit (dWord (s.dmemWords (s.ringAt 3) 16) 0) 0 = true ∧ s.dmaCode 3 (s.dmemWords (s.ringAt 3) 16) = Code.done
     ∧ s.dmaPreMet (s.dmemWords (s.ringAt 3) 16) false = true ∧ dSrcKind (s.dmemWords (s.ringAt 3) 16) = 0) ∧
  (let s : State := { ((booted [(Adr.DMA_CTL, 1),(Adr.DMA_C_CTL 3, 1),(Adr.HST_PCIE_STAT, 0x81),(Adr.DMA_C_RING_CFG 3, 2 + 16 *
       2),(Adr.DMC_G_CFG, 1),(Adr.SEQ_DMEM 0, ([BitVec.ofNat 32 (1 + 2 * 1 + 8 * 1 + 32 * 1 + 128 * 1 + 256 * 3), 3, 64, 0, 96, 0,
       0, 0] : List Word).getD 0 0 |>.toNat),(Adr.SEQ_DMEM 1, ([BitVec.ofNat 32 (1 + 2 * 1 + 8 * 1 + 32 * 1 + 128 * 1 + 256 * 3), 3,
       64, 0, 96, 0, 0, 0] : List Word).getD 1 0 |>.toNat),(Adr.SEQ_DMEM 2, ([BitVec.ofNat 32 (1 + 2 * 1 + 8 * 1 + 32 * 1 + 128 * 1
       + 256 * 3), 3, 64, 0, 96, 0, 0, 0] : List Word).getD 2 0 |>.toNat),(Adr.SEQ_DMEM 3, ([BitVec.ofNat 32 (1 + 2 * 1 + 8 * 1 + 32
       * 1 + 128 * 1 + 256 * 3), 3, 64, 0, 96, 0, 0, 0] : List Word).getD 3 0 |>.toNat),(Adr.SEQ_DMEM 4, ([BitVec.ofNat 32 (1 + 2 *
       1 + 8 * 1 + 32 * 1 + 128 * 1 + 256 * 3), 3, 64, 0, 96, 0, 0, 0] : List Word).getD 4 0 |>.toNat),(Adr.SEQ_DMEM 5,
       ([BitVec.ofNat 32 (1 + 2 * 1 + 8 * 1 + 32 * 1 + 128 * 1 + 256 * 3), 3, 64, 0, 96, 0, 0, 0] : List Word).getD 5 0
       |>.toNat),(Adr.SEQ_DMEM 6, ([BitVec.ofNat 32 (1 + 2 * 1 + 8 * 1 + 32 * 1 + 128 * 1 + 256 * 3), 3, 64, 0, 96, 0, 0, 0] : List
       Word).getD 6 0 |>.toNat),(Adr.SEQ_DMEM 7, ([BitVec.ofNat 32 (1 + 2 * 1 + 8 * 1 + 32 * 1 + 128 * 1 + 256 * 3), 3, 64, 0, 96,
       0, 0, 0] : List Word).getD 7 0 |>.toNat)]).setDma 3 { DmaChan.fresh with tail := 1 }) with
     hostOpen := some 4096 }
   s.fuse.m = false ∧ s.dmaOn 3 = true ∧ (s.dch_ 3).halted = false ∧ (s.dch_ 3).cur = none ∧ (s.dch_ 3).head ≠ (s.dch_ 3).tail ∧
     s.ringLoc 3 = 2 ∧ bit (dWord (s.dmemWords (s.ringAt 3) 16) 0) 0 = true ∧ s.dmaCode 3 (s.dmemWords (s.ringAt 3) 16) = Code.done
     ∧ s.dmaPreMet (s.dmemWords (s.ringAt 3) 16) false = true ∧ dPre (s.dmemWords (s.ringAt 3) 16) = 3 ∧ dSrcKind (s.dmemWords
     (s.ringAt 3) 16) ≠ 0) ∧
  (let s : State := (((booted [(Adr.DMA_CTL, 1),(Adr.DMA_C_CTL 3, 1),(Adr.HST_PCIE_STAT, 0x81),(Adr.DMA_C_RING_CFG 3, 2 + 16 *
     2),(Adr.DMC_G_CFG, 1),(Adr.SEQ_DMEM 0, ([BitVec.ofNat 32 (1 + 2 * 1 + 8 * 1 + 32 * 1 + 128 * 1 + 256 * 2), 3, 64, 0, 96, 0, 0,
     0] : List Word).getD 0 0 |>.toNat),(Adr.SEQ_DMEM 1, ([BitVec.ofNat 32 (1 + 2 * 1 + 8 * 1 + 32 * 1 + 128 * 1 + 256 * 2), 3, 64,
     0, 96, 0, 0, 0] : List Word).getD 1 0 |>.toNat),(Adr.SEQ_DMEM 2, ([BitVec.ofNat 32 (1 + 2 * 1 + 8 * 1 + 32 * 1 + 128 * 1 + 256
     * 2), 3, 64, 0, 96, 0, 0, 0] : List Word).getD 2 0 |>.toNat),(Adr.SEQ_DMEM 3, ([BitVec.ofNat 32 (1 + 2 * 1 + 8 * 1 + 32 * 1 +
     128 * 1 + 256 * 2), 3, 64, 0, 96, 0, 0, 0] : List Word).getD 3 0 |>.toNat),(Adr.SEQ_DMEM 4, ([BitVec.ofNat 32 (1 + 2 * 1 + 8 *
     1 + 32 * 1 + 128 * 1 + 256 * 2), 3, 64, 0, 96, 0, 0, 0] : List Word).getD 4 0 |>.toNat),(Adr.SEQ_DMEM 5, ([BitVec.ofNat 32 (1 +
     2 * 1 + 8 * 1 + 32 * 1 + 128 * 1 + 256 * 2), 3, 64, 0, 96, 0, 0, 0] : List Word).getD 5 0 |>.toNat),(Adr.SEQ_DMEM 6,
     ([BitVec.ofNat 32 (1 + 2 * 1 + 8 * 1 + 32 * 1 + 128 * 1 + 256 * 2), 3, 64, 0, 96, 0, 0, 0] : List Word).getD 6 0
     |>.toNat),(Adr.SEQ_DMEM 7, ([BitVec.ofNat 32 (1 + 2 * 1 + 8 * 1 + 32 * 1 + 128 * 1 + 256 * 2), 3, 64, 0, 96, 0, 0, 0] : List
     Word).getD 7 0 |>.toNat)]).setDma 3 { DmaChan.fresh with tail := 1 })).setDc 0 { DChan.fresh with
     up := true, wait := [(true, ⟨11, 0, [], 0⟩)] }
   s.fuse.m = false ∧ s.dmaOn 3 = true ∧ (s.dch_ 3).halted = false ∧ (s.dch_ 3).cur = none ∧ (s.dch_ 3).head ≠ (s.dch_ 3).tail ∧
     s.ringLoc 3 = 2 ∧ bit (dWord (s.dmemWords (s.ringAt 3) 16) 0) 0 = true ∧ s.dmaPreMet (s.dmemWords (s.ringAt 3) 16) false =
     false) ∧
  (let s : State := (((booted [(Adr.DMA_CTL, 1),(Adr.DMA_C_CTL 3, 1),(Adr.HST_PCIE_STAT, 0x81),(Adr.DMA_C_RING_CFG 3, 2 + 16 *
     2),(Adr.DMC_G_CFG, 1)]).setDma 3 { DmaChan.fresh with
     tail := 1, cur := some [BitVec.ofNat 32 (1 + 2 * 0 + 8 * 1 + 32 * 1 + 128 * 1 + 256 * 1), 3, 64, 0, 96, 0, 0, 0] })).setDc 0 {
       DChan.fresh with
     up := true, wait := [(true, ⟨11, 0, [], 0⟩)] }
   let d : List Word := [BitVec.ofNat 32 (1 + 2 * 0 + 8 * 1 + 32 * 1 + 128 * 1 + 256 * 1), 3, 64, 0, 96, 0, 0, 0]
   s.dmaOn 3 = true ∧ (s.dch_ 3).cur = some d ∧ (s.dch_ 3).moved = none ∧ dSrcKind d ≠ 2 ∧ s.dmaPreMet d true = false) ∧
  (let s : State := { ((booted [(Adr.DMA_CTL, 1),(Adr.DMA_C_CTL 3, 1),(Adr.HST_PCIE_STAT, 0x81),(Adr.DMA_C_RING_CFG 3,
       2),(Adr.DMC_G_CFG, 1)]).setDma 3 { DmaChan.fresh with tail := 1 }) with
     hostOpen := some 4096 }
   s.fuse.m = false ∧ s.dmaOn 3 = true ∧ (s.dch_ 3).halted = false ∧ (s.dch_ 3).cur = none ∧ (s.dch_ 3).head ≠ (s.dch_ 3).tail ∧
     s.ringLoc 3 = 0 ∧ s.dmaCode 3 (List.take 16 [BitVec.ofNat 32 (1 + 2 * 1 + 8 * 1 + 32 * 1 + 128 * 1 + 256 * 3), 3, 64, 0, 96, 0,
     0, 0]) = Code.done) ∧
  (let s : State := ((booted [(Adr.DMA_CTL, 1),(Adr.DMA_C_CTL 3, 1),(Adr.HST_PCIE_STAT, 0x81),(Adr.DMA_C_RING_CFG 3,
     2),(Adr.DMC_G_CFG, 1)]).setDma 3 { DmaChan.fresh with tail := 1 })
   s.fuse.m = false ∧ s.dmaOn 3 = true ∧ (s.dch_ 3).halted = false ∧ (s.dch_ 3).cur = none ∧ (s.dch_ 3).head ≠ (s.dch_ 3).tail ∧
     s.ringLoc 3 = 0 ∧ s.domRuns 21 = true ∧ s.pcieUp = true ∧ bit (dWord (List.take 16 [BitVec.ofNat 32 (1 + 2 * 1 + 8 * 1 + 32 * 1
     + 128 * 1 + 256 * 0), 3, 64, 0, 96, 0, 0, 0]) 0) 0 = true ∧ s.dmaCode 3 (List.take 16 [BitVec.ofNat 32 (1 + 2 * 1 + 8 * 1 + 32
     * 1 + 128 * 1 + 256 * 0), 3, 64, 0, 96, 0, 0, 0]) = Code.done ∧ s.dmaPreMet (List.take 16 [BitVec.ofNat 32 (1 + 2 * 1 + 8 * 1 +
     32 * 1 + 128 * 1 + 256 * 0), 3, 64, 0, 96, 0, 0, 0]) false = true ∧ dSrcKind (List.take 16 [BitVec.ofNat 32 (1 + 2 * 1 + 8 * 1
     + 32 * 1 + 128 * 1 + 256 * 0), 3, 64, 0, 96, 0, 0, 0]) ≠ 0) ∧
  (let s : State := ((booted [(Adr.DMA_CTL, 1),(Adr.DMA_C_CTL 3, 1),(Adr.HST_PCIE_STAT, 0x81),(Adr.DMA_C_RING_CFG 3, 2 + 16 *
     2),(Adr.DMC_G_CFG, 1)]).setDma 3 { DmaChan.fresh with
     tail := 1, cur := some [BitVec.ofNat 32 (1 + 2 * 0 + 8 * 1 + 32 * 1 + 128 * 1 + 256 * 0), 3, 64, 0, 96, 0, 0, 0] })
   let d : List Word := [BitVec.ofNat 32 (1 + 2 * 0 + 8 * 1 + 32 * 1 + 128 * 1 + 256 * 0), 3, 64, 0, 96, 0, 0, 0]
   s.fuse.m = false ∧ s.dmaOn 3 = true ∧ s.ringLoc 3 = 2 ∧ (s.dch_ 3).cur = some d ∧ (s.dch_ 3).moved = none ∧ dSrcKind d = 0 ∧
     dDstKind d = 1 ∧ dCheck d = 1 ∧ s.dmaPreMet d true = true ∧ s.dramCode 11 (dDst d) (dOut d (dLen d)) true = Code.done) :=
  by refine ⟨?_, ?_, ?_, ?_, ?_, ?_, ?_, ?_, ?_, ?_, ?_, ?_⟩ <;> decide +kernel

theorem witness_DmaHalt :
  (let s : State := ((booted [(Adr.DMA_CTL, 1),(Adr.DMA_C_CTL 3, 1),(Adr.HST_PCIE_STAT, 0x81),(Adr.DMA_C_RING_CFG 3, 2 + 16 *
     2),(Adr.DMC_G_CFG, 1),(Adr.SEQ_DMEM 0, ([BitVec.ofNat 32 (1 + 2 * 3 + 8 * 1 + 32 * 1 + 128 * 1 + 256 * 0), 3, 64, 0, 96, 0, 0,
     0] : List Word).getD 0 0 |>.toNat),(Adr.SEQ_DMEM 1, ([BitVec.ofNat 32 (1 + 2 * 3 + 8 * 1 + 32 * 1 + 128 * 1 + 256 * 0), 3, 64,
     0, 96, 0, 0, 0] : List Word).getD 1 0 |>.toNat),(Adr.SEQ_DMEM 2, ([BitVec.ofNat 32 (1 + 2 * 3 + 8 * 1 + 32 * 1 + 128 * 1 + 256
     * 0), 3, 64, 0, 96, 0, 0, 0] : List Word).getD 2 0 |>.toNat),(Adr.SEQ_DMEM 3, ([BitVec.ofNat 32 (1 + 2 * 3 + 8 * 1 + 32 * 1 +
     128 * 1 + 256 * 0), 3, 64, 0, 96, 0, 0, 0] : List Word).getD 3 0 |>.toNat),(Adr.SEQ_DMEM 4, ([BitVec.ofNat 32 (1 + 2 * 3 + 8 *
     1 + 32 * 1 + 128 * 1 + 256 * 0), 3, 64, 0, 96, 0, 0, 0] : List Word).getD 4 0 |>.toNat),(Adr.SEQ_DMEM 5, ([BitVec.ofNat 32 (1 +
     2 * 3 + 8 * 1 + 32 * 1 + 128 * 1 + 256 * 0), 3, 64, 0, 96, 0, 0, 0] : List Word).getD 5 0 |>.toNat),(Adr.SEQ_DMEM 6,
     ([BitVec.ofNat 32 (1 + 2 * 3 + 8 * 1 + 32 * 1 + 128 * 1 + 256 * 0), 3, 64, 0, 96, 0, 0, 0] : List Word).getD 6 0
     |>.toNat),(Adr.SEQ_DMEM 7, ([BitVec.ofNat 32 (1 + 2 * 3 + 8 * 1 + 32 * 1 + 128 * 1 + 256 * 0), 3, 64, 0, 96, 0, 0, 0] : List
     Word).getD 7 0 |>.toNat)]).setDma 3 { DmaChan.fresh with tail := 1 })
   s.fuse.m = false ∧ s.dmaOn 3 = true ∧ (s.dch_ 3).halted = false ∧ (s.dch_ 3).cur = none ∧ (s.dch_ 3).head ≠ (s.dch_ 3).tail ∧
     s.ringLoc 3 = 2 ∧ bit (dWord (s.dmemWords (s.ringAt 3) 16) 0) 0 = true ∧ s.dmaCode 3 (s.dmemWords (s.ringAt 3) 16) ≠ Code.done) ∧
  (let s : State := ((booted [(Adr.DMA_CTL, 1),(Adr.DMA_C_CTL 3, 1),(Adr.HST_PCIE_STAT, 0x81)]).setDma 3 { DmaChan.fresh with
     tail := 1, halted := true, code := 5 })
   s.writable .pcie (Adr.DMA_C_CTL 3) 5 ∧ (s.dch_ 3).halted = true ∧ s.fuse.m = false) ∧
  (let s : State := (booted [(Adr.DMA_CTL, 1),(Adr.DMA_C_CTL 3, 1),(Adr.HST_PCIE_STAT, 0x81)])
   s.writable .pcie (Adr.DMA_C_CTL 3) 5 ∧ (s.dch_ 3).halted = false) ∧
  (let s : State := { ((booted [(Adr.DMA_CTL, 1),(Adr.DMA_C_CTL 3, 1),(Adr.HST_PCIE_STAT, 0x81)]).setDma 3 { DmaChan.fresh with
     halted := true, code := 5 }) with
     fuse := { Fuse.std with m := true } }
   s.fuse.m = true ∧ (s.dch_ 3).halted = true ∧ (s.dch_ 3).shd = false ∧ (s.dch_ 3).cur = none ∧ s.dmaSeq 3 = false ∧ s.writable
     .pcie (Adr.DMA_C_GO 3) 1) :=
  ⟨by decide +kernel, by decide +kernel, by decide +kernel, by decide +kernel⟩

theorem witness_DmaControl :
  (let s : State := (booted [(Adr.DMA_CTL, 1),(Adr.DMA_C_CTL 3, 1),(Adr.HST_PCIE_STAT, 0x81)])
   s.writable .pcie (Adr.DMA_C_CTL 3) 0 ∧ s.flag (Adr.DMA_C_CTL 3) 0 = true ∧ (s.dch_ 3).moved = none ∧ s.dmaBusy 3 = false ∧
     s.writable .pcie Adr.DMA_CTL 0 ∧ s.flag Adr.DMA_CTL 0 = true ∧ s.writable .pcie (Adr.DMA_C_CTL 3) 3) ∧
  (let s : State := ((booted [(Adr.DMA_CTL, 1),(Adr.DMA_C_CTL 3, 1),(Adr.HST_PCIE_STAT, 0x81),(Adr.DMA_C_RING_CFG 3, 2 + 16 *
     2)]).setDma 3 { DmaChan.fresh with
     tail := 1, cur := some [BitVec.ofNat 32 (1 + 2 * 0 + 8 * 1 + 32 * 1 + 128 * 1 + 256 * 0), 3, 64, 0, 96, 0, 0, 0] })
   s.writable .pcie (Adr.DMA_C_CTL 3) 0 ∧ s.flag (Adr.DMA_C_CTL 3) 0 = true ∧ (s.dch_ 3).moved = none ∧ s.dmaBusy 3 = true ∧
     s.writable .pcie Adr.DMA_CTL 0 ∧ s.flag Adr.DMA_CTL 0 = true ∧ s.writable .pcie (Adr.DMA_C_CTL 3) 3) ∧
  (let s : State := ((booted [(Adr.DMA_CTL, 1),(Adr.DMA_C_SHD 3 7, 5)]).setDma 3 { DmaChan.fresh with
     head := 5, tail := 5, halted := true })
   s.writable .pcie (Adr.DMA_C_CTL 3) 2 ∧ s.dmaBusy 3 = false) ∧
  (let s : State := ((booted [(Adr.DMA_CTL, 1),(Adr.DMA_C_CTL 3, 1),(Adr.HST_PCIE_STAT, 0x81),(Adr.DMA_C_RING_CFG 3, 2 + 16 *
     2)]).setDma 3 { DmaChan.fresh with
     tail := 1, cur := some [BitVec.ofNat 32 (1 + 2 * 0 + 8 * 1 + 32 * 1 + 128 * 1 + 256 * 0), 3, 64, 0, 96, 0, 0, 0] })
   let d : List Word := [BitVec.ofNat 32 (1 + 2 * 0 + 8 * 1 + 32 * 1 + 128 * 1 + 256 * 0), 3, 64, 0, 96, 0, 0, 0]
   s.dmaOn 3 = true ∧ (s.dch_ 3).cur = some d ∧ dHost d = true) :=
  ⟨by decide +kernel, by decide +kernel, by decide +kernel, by decide +kernel⟩

theorem witness_SoftwarePending :
  (let s : State := (booted [(Adr.IC_EN 1 7, 0x10000),(Adr.IC_SRC_CFG 240, 3)])
   s.boot.done = true ∧ s.writable .pcie (Adr.IC_PEND_SET 7) 0x10001 ∧ bit (0x10001 : Word) 16 = true ∧ s.hasSource 240 = true) ∧
  (let s : State := { (booted [(Adr.IC_EN 1 7, 0x10000),(Adr.IC_SRC_CFG 240, 3),(Adr.IC_PEND_SET 7, 0x10000)]) with
     ic := ⟨[(240, 1, false)], 0⟩ }
   s.boot.done = true ∧ s.soft 240 = true ∧ s.hasSource 240 = true ∧ s.ic.active = [(240, 1, false)] ∧ s.writable .pcie
     (Adr.IC_CLAIM (b2n false) 1) (BitVec.ofNat 32 240)) ∧
  (let s : State := (booted [(Adr.IC_EN 1 7, 0x10000),(Adr.IC_SRC_CFG 240, 3),(Adr.IC_PEND_SET 7, 0x10000)])
   s.boot.done = true ∧ s.candidate 1 false = some 240 ∧ s.readable (Adr.IC_CLAIM (b2n false) 1)) :=
  ⟨by decide +kernel, by decide +kernel, by decide +kernel⟩

theorem witness_Interrupts :
  (let s : State := (booted [(Adr.IC_EN 1 7, 0x10000),(Adr.IC_SRC_CFG 240, 3),(Adr.IC_PEND_SET 7, 0x10000)])
   (1 : Nat) < 4 ∧ s.candidate 1 false = some 240 ∧ s.readable (Adr.IC_CLAIM (b2n false) 1)) ∧
  (let s : State := (booted [(Adr.IC_EN 1 7, 0x10000),(Adr.IC_SRC_CFG 240, 3)])
   s.candidate 1 false = none ∧ s.readable (Adr.IC_CLAIM (b2n false) 1)) ∧
  (let s : State := { (booted [(Adr.IC_EN 1 7, 0x10000),(Adr.IC_SRC_CFG 240, 3)]) with ic := ⟨[(240, 1, false)], 0⟩ }
   s.writable .pcie (Adr.IC_CLAIM (b2n false) 1) (BitVec.ofNat 32 240) ∧ s.ic.active = [(240, 1, false)]) ∧
  (let s : State := (booted [(Adr.IC_EN 1 7, 0x10000),(Adr.IC_SRC_CFG 240, 3)])
   s.writable .pcie (Adr.IC_CLAIM (b2n false) 1) (BitVec.ofNat 32 240) ∧ s.isActive 240 = false) ∧
  (let s : State := (booted [(Adr.DMA_CTL, 1),(Adr.DMA_C_CTL 3, 1),(Adr.HST_PCIE_STAT, 0x81),(Adr.MSIX_DATA 3, 5)])
   (∀ x ∈ s.dma, x.2.cur.any dHost = false) ∧ s.pcieUp = true) ∧
  (let s : State := ((booted [(Adr.DMA_CTL, 1),(Adr.DMA_C_CTL 3, 1),(Adr.HST_PCIE_STAT, 0x81),(Adr.DMA_C_RING_CFG 3, 2 + 16 *
     2)]).setDma 3 { DmaChan.fresh with
     tail := 1, cur := some [BitVec.ofNat 32 (1 + 2 * 0 + 8 * 1 + 32 * 1 + 128 * 1 + 256 * 0), 3, 64, 0, 96, 0, 0, 0] })
   let d : List Word := [BitVec.ofNat 32 (1 + 2 * 0 + 8 * 1 + 32 * 1 + 128 * 1 + 256 * 0), 3, 64, 0, 96, 0, 0, 0]
   let x := { DmaChan.fresh with tail := 1, cur := some d }
   s.pcieUp = true ∧ s.dma = [(3, x)] ∧ x.cur = some d ∧ dHost d = true ∧ x.moved = none ∧ s.fuse.m = false ∧ s.ringLoc 3 = 2) :=
  ⟨by decide +kernel, by decide +kernel, by decide +kernel, by decide +kernel, by decide +kernel, by decide +kernel⟩

theorem witness_HostAccess :
  (let s : State := (booted [])
   s.writable .pcie (Adr.SEQ_DMEM 0) 7) ∧
  (let s : State := (booted [])
   s.writable .pcie (0xB0000 - 4) 7 ∧ s.writable .mspi (0xB0000 - 4) 7) ∧
  (let s : State := (booted [])
   s.boot.done = true ∧ s.readable (Adr.LND_CTL 0) ∧ regAcc (Adr.LND_CTL 0) = some .rwl ∧ 0x101000 ≤ Adr.LND_CTL 0) ∧
  (let s : State := (booted [])
   s.readable Adr.GLB_TICK_CNT_LO ∧ pairLo Adr.GLB_TICK_CNT_LO = true ∧ regAcc Adr.GLB_TICK_CNT_LO ≠ some .wo ∧ regAcc
     Adr.GLB_TICK_CNT_LO ≠ some .rc) ∧
  (let s : State := (booted [])
   s.writable .pcie Adr.HST_BAR2_BASE_HI 7) ∧
  (let s : State := (booted [(Adr.SEQ_CNT_TMO, 7)])
   s.readable Adr.SEQ_CNT_TMO ∧ regAcc Adr.SEQ_CNT_TMO = some .rc) ∧
  (let s : State := (booted [(Adr.HST_ACC_ERR, 0x30003),(Adr.HST_ACC_ERR_ADDR_LO, 44)])
   s.writable .pcie Adr.HST_ACC_ERR 1 ∧ bit (1 : Word) 0 = true) ∧
  ((0xA0002 : Nat) % 4 ≠ 0) ∧
  (let s : State := (booted [(Adr.DMC_G_CFG, 1),(Adr.HST_BAR2_CFG, 20)])
   s.boot.done = true ∧ s.domUp 21 = true ∧ (100 : Nat) < 2 ^ s.fld Adr.HST_BAR2_CFG 0 6 ∧ s.dramCode 12 (s.pair
     Adr.HST_BAR2_BASE_LO Adr.HST_BAR2_BASE_HI + 100) [1, 2, 3].length true = Code.done) ∧
  (let s : State := (booted [(Adr.SEQ_L_CTL 3, 0x9)])
   (0 : Nat) ∈ s.running 0) ∧
  (16 < (List.replicate 17 ((15, 0) : Nat × Word)).length) :=
  by refine ⟨?_, ?_, ?_, ?_, ?_, ?_, ?_, ?_, ?_, ?_, ?_⟩ <;> decide +kernel

theorem witness_Requests :
  (let s : State := (booted [])
   let r : Req := ⟨2, .pcie, 0x7FFF, 0, [], 77⟩
   s.takesRequest r ∧ ∀ x ∈ requestOps r, (s.asked x.2 r).reqCode r.w ≠ Code.done) ∧
  (let s : State := (booted [])
   let r : Req := ⟨2, .pcie, 0, 0, [], 256⟩
   s.takesRequest r ∧ (s.asked 0 r).reqCode r.w = Code.done) ∧
  (let s : State := (booted [])
   let r : Req := ⟨2, .pcie, 0, 0, [0], 77⟩
   s.takesRequest r ∧ (s.asked 1 r).reqCode r.w = Code.done ∧ s.fenceMet (r.args.getD 0 0).toNat [] = true) ∧
  (let s : State := (booted [])
   let r : Req := ⟨2, .pcie, 0, 0, [2, 127], 77⟩
   s.takesRequest r ∧ (s.asked 1 r).reqCode r.w = Code.done ∧ s.fenceMet (r.args.getD 0 0).toNat (s.fenceJobs (r.args.getD 1 0)) =
     true) ∧
  (let s : State := ((booted []).setDc 0 { DChan.fresh with up := true, wait := [(true, ⟨12, 0, [], 0⟩)] })
   let r : Req := ⟨2, .pcie, 0, 0, [1], 77⟩
   s.takesRequest r ∧ (s.asked 1 r).reqCode r.w = Code.done ∧ s.fenceMet (r.args.getD 0 0).toNat [] = false) ∧
  (let s : State := { (booted []) with hostOpen := some 4096 }
   let r : Req := ⟨2, .pcie, 0, 0, [3], 77⟩
   s.takesRequest r ∧ (s.asked 1 r).reqCode r.w = Code.done ∧ s.fenceMet (r.args.getD 0 0).toNat [] = false) ∧
  (let s : State := (booted [(Adr.SEQ_L_CTL 3, 0x9),(Adr.FCT_S_CTL 0, 5)])
   let r : Req := ⟨2, .pcie, 0x1000, 0, [], 77⟩
   s.takesRequest r ∧ (s.asked 0x12 r).reqCode r.w = Code.done) ∧
  (let s : State := (booted [(Adr.SEQ_L_CTL 3, 0x10009),(Adr.COD_C_CTL 0, 1)])
   let r : Req := ⟨2, .pcie, 0x2000, 0, [], 77⟩
   s.takesRequest r ∧ (s.asked 0x12 r).reqCode r.w = Code.done) ∧
  (let s : State := (booted [])
   let r : Req := ⟨2, .pcie, 0x4001, 0, [], 77⟩
   s.takesRequest r ∧ (s.asked 0x20 r).reqCode r.w = Code.done) ∧
  (let s : State := (booted [])
   let r : Req := ⟨2, .pcie, 0x5001, 0, [], 77⟩
   s.takesRequest r ∧ (s.asked 0x20 r).reqCode r.w = Code.done) ∧
  (let s : State := (((booted [(Adr.DMC_G_CFG, 1),(Adr.DMC_G_RTOP, 16),(Adr.DMC_G_RELOC, 1)]).setDc 3 { DChan.fresh with
     up := true }).setDc 0 { DChan.fresh with up := true })
   let r : Req := ⟨2, .pcie, 0x8003, 0, [], 77⟩
   s.takesRequest r ∧ (s.asked 0x20 r).reqCode r.w = Code.done) ∧
  (let s : State := { ((booted []).setCe 1 { CEngine.fresh with st := 5 }) with
     flt := { Flt.fresh with units := [(6, ⟨[], 2, 1, 0, 0, false⟩)] } }
   let r : Req := ⟨2, .pcie, 0x5001, 0, [], 77⟩
   s.takesRequest r ∧ (s.asked 0x21 r).reqCode r.w = Code.done) ∧
  (let s : State := ((booted []).setLg 0 { LGroup.fresh with st := 5 })
   let r : Req := ⟨2, .pcie, 0x6000, 0, [], 77⟩
   s.takesRequest r ∧ (s.asked 0x22 r).reqCode r.w = Code.done) ∧
  (let s : State := ((booted []).setXg 1 { XGroup.fresh with st := 6 })
   let r : Req := ⟨2, .pcie, 0x7001, 0, [], 77⟩
   s.takesRequest r ∧ (s.asked 0x22 r).reqCode r.w = Code.done) ∧
  (let s : State := (booted [])
   let r : Req := ⟨2, .pcie, 0x9009, 0, [2], 77⟩
   s.takesRequest r ∧ (s.asked 0x30 r).reqCode r.w = Code.done ∧ (s.domain 9).phase = .stable ∧ (s.domain 9).st ≠ pstate 2) ∧
  (let s : State := (booted [(Adr.QF_Q_CFG 20, 3)])
   let r : Req := ⟨2, .pcie, 0xA014, 0, [], 77⟩
   s.takesRequest r ∧ (s.asked 0x41 r).reqCode r.w = Code.done) ∧
  (let s : State := (booted [])
   let r : Req := ⟨2, .pcie, 0, 0, [1], 77⟩
   s.takesRequest r ∧ (s.asked 0x51 r).reqCode r.w = Code.done) ∧
  (let s : State := { (booted [(Adr.DMC_G_CFG, 1)]) with
     flt := { Flt.fresh with
     ring := [(⟨1, 2, 4, 0x100, 1, false, .transient, 0, 5, 0, 0, 0, 0, false, false⟩ : FRec), (⟨1, 2, 4, 0x100, 1, false,
       .transient, 0, 5, 0, 0, 0, 0, false, false⟩ : FRec), (⟨1, 2, 4, 0x100, 1, false, .transient, 0, 5, 0, 0, 0, 0, false, false⟩
       : FRec)] } }
   let r : Req := ⟨2, .pcie, 0, 0, [0x101, 64, 0], 77⟩
   s.takesRequest r ∧ (s.asked 0x60 r).reqCode r.w = Code.done ∧ (r.args.getD 0 0).toNat % 2 = 1) ∧
  (let s : State := { (booted []) with
     flt := { Flt.fresh with
     valid := true, pin := true, ring := [(⟨1, 2, 4, 0x100, 1, false, .transient, 0, 5, 0, 0, 0, 0, false, false⟩ : FRec)] } }
   let r : Req := ⟨2, .pcie, 0, 0, [3], 77⟩
   s.takesRequest r ∧ (s.asked 0x61 r).reqCode r.w = Code.done) ∧
  (let s : State := (booted [])
   let r : Req := ⟨2, .pcie, 0, 0, [1,2,3], 77⟩
   s.takesRequest r ∧ (s.asked 0x70 r).reqCode r.w = Code.done) :=
  by refine ⟨?_, ?_, ?_, ?_, ?_, ?_, ?_, ?_, ?_, ?_, ?_, ?_, ?_, ?_, ?_, ?_, ?_, ?_, ?_, ?_⟩ <;> decide +kernel

theorem witness_WaitingRequests :
  (let s : State := (booted [(Adr.FCT_S_CTL 0, 5)])
   let r : Req := ⟨2, .pcie, 0x1000, 0, [], 77⟩
   s.takesRequest r ∧ (s.asked 0x10 r).reqCode r.w = Code.done ∧ (s.asked 0x10 r).pendingLike r.w 0x10 (r.target % 65536) = []) ∧
  (let s : State := (booted [(Adr.SEQ_L_CTL 3, 0x9),(Adr.FCT_S_CTL 0, 5)])
   let r : Req := ⟨2, .pcie, 0x1000, 0, [], 77⟩
   s.takesRequest r ∧ (s.asked 0x11 r).reqCode r.w = Code.done ∧ (s.asked 0x11 r).pendingLike r.w 0x11 (r.target % 65536) = []) ∧
  (let s : State := (booted [(Adr.FCT_S_CTL 0, 5),(Adr.LND_GEOM 0, 256 + 65536 * 32),(Adr.LND_FMT 0, 12)])
   let r : Req := ⟨2, .pcie, 0x1000, 0, [5120], 77⟩
   s.takesRequest r ∧ (s.asked 0x13 r).reqCode r.w = Code.done ∧ (s.asked 0x13 r).pendingLike r.w 0x13 (r.target % 65536) = []) ∧
  (let s : State := (booted [(Adr.COD_C_CTL 0, 1),(Adr.COD_C_RC 0, 1),(Adr.COD_C_RATE 0, 77)])
   let r : Req := ⟨2, .pcie, 0x2000, 0, [0xFFFFFFFF,99,0xFFFFFFFF], 77⟩
   s.takesRequest r ∧ (s.asked 0x13 r).reqCode r.w = Code.done ∧ (s.asked 0x13 r).pendingLike r.w 0x13 (r.target % 65536) = []) ∧
  (let s : State := { (booted []) with thm := { Thm.fresh with od := true } }
   let r : Req := ⟨2, .pcie, 0, 0, [0], 77⟩
   s.takesRequest r ∧ (s.asked 0x31 r).reqCode r.w = Code.done ∧ (s.asked 0x31 r).pendingLike r.w 0x31 (r.target % 65536) = []) ∧
  (let s : State := (booted [])
   let r : Req := ⟨2, .pcie, 0, 0, [1], 77⟩
   s.takesRequest r ∧ (s.asked 0x31 r).reqCode r.w = Code.done ∧ (s.asked 0x31 r).pendingLike r.w 0x31 (r.target % 65536) = []) ∧
  (let s : State := { (booted []) with thm := { Thm.fresh with odRaised := true, odReached := true } }
   let r : Req := ⟨2, .pcie, 0, 0, [1], 77⟩
   s.takesRequest r ∧ (s.asked 0x31 r).reqCode r.w = Code.done ∧ (s.asked 0x31 r).pendingLike r.w 0x31 (r.target % 65536) = []) ∧
  (let s : State := (booted [])
   let r : Req := ⟨2, .pcie, 0, 0, [0x4000, 65566], 77⟩
   s.takesRequest r ∧ (s.asked 0x40 r).reqCode r.w = Code.done ∧ (s.asked 0x40 r).pendingLike r.w 0x40 (r.target % 65536) = []) ∧
  (let s : State := { (booted [(Adr.FCT_S_CTL 0, 5),(Adr.HST_W_REQ 1 0, 0x10 + 65536 * 0x1000)]) with win := [(1, ⟨5, .tick⟩)] }
   let r : Req := ⟨2, .pcie, 0x1000, 0, [], 77⟩
   s.takesRequest r ∧ (s.asked 0x10 r).reqCode r.w = Code.done ∧ (s.asked 0x10 r).pendingLike r.w 0x10 (r.target % 65536) = [1] ∧
     tget? s.win 1 = some ⟨5, .tick⟩) ∧
  (let s : State := { (booted []) with win := [(1, ⟨5, .mail⟩)] }
   let r : Req := ⟨2, .pcie, 0x1000, 0, [], 77⟩
   s.takesRequest r ∧ tget? s.win 1 = some ⟨5, .mail⟩ ∧ s.flag (Adr.HST_W_CTL 1) 1 = false) ∧
  (let s : State := { (booted []) with win := [(1, ⟨5, .fence 2 1 []⟩)] }
   let r : Req := ⟨2, .pcie, 0x1000, 0, [], 77⟩
   s.takesRequest r ∧ tget? s.win 1 = some ⟨5, .fence 2 1 []⟩ ∧ s.flag (Adr.HST_W_CTL 1) 1 = false) :=
  by refine ⟨?_, ?_, ?_, ?_, ?_, ?_, ?_, ?_, ?_, ?_, ?_⟩ <;> decide +kernel

theorem witness_FaultCollector :
  (let s : State := { (booted []) with
     flt := { Flt.fresh with
     bufs := [(4, [(⟨1, 2, 4, 256, 0, false, .pending, 0, 5, 0, 1, 0, 0, false, false⟩ : FRec), (⟨1, 2, 4, 256, 0, false, .pending,
       0, 5, 0, 1, 0, 0, false, false⟩ : FRec), (⟨1, 2, 4, 256, 0, false, .pending, 0, 5, 0, 1, 0, 0, false, false⟩ : FRec)])] } }
   (s.injBlockOk 4 && s.unitThere 0x2003) = true ∧ fltUnit 0x2003 = none ∧ s.roomAt 4) ∧
  (let s : State := (booted [])
   (s.injBlockOk 4 && s.unitThere 0x2040) = false) ∧
  (let s : State := (booted [])
   (s.injBlockOk 60 && s.unitThere 0x2003) = false) ∧
  (let s : State := { (booted []) with
     flt := { Flt.fresh with
     valid := true, pin := true, ring := [(⟨1, 2, 4, 256, 0, false, .pending, 0, 5, 0, 1, 0, 0, false, false⟩ : FRec)] } }
   s.writable .pcie Adr.FLT_STAT 1) ∧
  (let s : State := (booted [])
   s.writable .pcie Adr.FLT_INJ_CTL 0x1000104 ∧ s.injUnlocked = false) ∧
  (let s : State := { (booted [(Adr.FLT_INJ_ARG, 3)]) with fuse := { Fuse.std with testMode := true, inject := true } }
   s.writable .pcie Adr.FLT_INJ_CTL 0x1000304 ∧ s.injUnlocked = true ∧ bit (0x1000304 : Word) 8 = true ∧ s.flt.armed = false ∧
     s.injBlockOk (bits 0x1000304 0 8) = true ∧ injCodeOk (bits 0x1000304 16 16) = true ∧ s.roomAt (bits 0x1000304 0 8) ∧ fltUnit
     (injUnit (bits 0x1000304 0 8) (bits 0x1000304 16 16) (s.reg Adr.FLT_INJ_ARG).toNat) = none) ∧
  (let s : State := { (booted [(Adr.FLT_CTL, 0)]) with
     flt := { Flt.fresh with tests := [(⟨1, 2, 4, 256, 0, false, .pending, 8195, 5, 0, 9, 0, 0, false, false⟩ : FRec)] } }
   let x := (⟨1, 2, 4, 256, 0, false, .pending, 8195, 5, 0, 9, 0, 0, false, false⟩ : FRec)
   s.flt.tests = [x] ∧ s.flag Adr.FLT_CTL 0 = false ∧ x.overTh = false ∧ s.testOutcome x 0 = .transient ∧ fltUnit x.unit = none) :=
  by refine ⟨?_, ?_, ?_, ?_, ?_, ?_, ?_⟩ <;> decide +kernel

theorem witness_RepairsAndFlash :
  (let s : State := { ((booted [(Adr.FLT_CTL, 2)]).setCe 1 { CEngine.fresh with st := 5 }) with
     flt := { Flt.fresh with units := [(6, ⟨[], 2, 1, 2, 0, false⟩)] }, clk := { Clk.fresh with count := 100000 } }
   s.flag Adr.FLT_CTL 1 = true ∧ s.repairable 6 = true ∧ (s.fu 6).attempts < 3 ∧ (s.fu 6).since + s.fld Adr.FLT_WIN 16 16 ≤
     s.clk.count) ∧
  (let s : State := { ((booted []).setCe 1 { CEngine.fresh with st := 5 }) with
     flt := { Flt.fresh with units := [(6, ⟨[], 3, 1, 2, 0, false⟩)] } }
   (6 : Nat) < 7 ∧ s.hasUnit 6 = true ∧ (s.fu 6).st = 3) ∧
  (let s : State := { ((booted []).setEng 1 { FEngine.fresh with st := 5 }) with
     flt := { Flt.fresh with units := [(1, ⟨[], 3, 1, 2, 0, false⟩)] } }
   (1 : Nat) < 7 ∧ s.hasUnit 1 = true ∧ (s.fu 1).st = 3) ∧
  (let s : State := { (booted []) with
     flt := { Flt.fresh with logq := [[1, 2], [3]] }, boot := { (booted []).boot with logOff := 1024, logLen := 32 } }
   s.flt.logq = [1, 2] :: [[3]] ∧ s.flops = [] ∧ s.logUsed s.boot.logOff (s.boot.logLen / 16) < s.boot.logLen / 16) ∧
  (let s : State := { (booted []) with
     flt := { Flt.fresh with logq := [[1, 2], [3]] }, boot := { (booted []).boot with logOff := 1024, logLen := 0 } }
   s.flt.logq = [1, 2] :: [[3]] ∧ s.flops = [] ∧ s.boot.logLen / 16 ≤ s.logUsed s.boot.logOff (s.boot.logLen / 16)) ∧
  (let s : State := (booted [(Adr.BOOT_FL_ADDR, 0x10000),(Adr.BOOT_FL_LEN, 4),(Adr.BOOT_FL_INFO, 128)])
   s.writable .pcie Adr.BOOT_FL_OP (BitVec.ofNat 32 0) ∧ s.flCode 0 = Code.done) ∧
  (let s : State := (booted [(Adr.BOOT_FL_ADDR, 0x10000),(Adr.BOOT_FL_LEN, 4),(Adr.BOOT_FL_INFO, 128)])
   s.writable .pcie Adr.BOOT_FL_OP (BitVec.ofNat 32 1) ∧ s.flCode 1 = Code.done) ∧
  (let s : State := (booted [(Adr.BOOT_FL_ADDR, 0x10000),(Adr.BOOT_FL_LEN, 4),(Adr.BOOT_FL_INFO, 128)])
   s.writable .pcie Adr.BOOT_FL_OP (BitVec.ofNat 32 2) ∧ s.flCode 2 = Code.done) ∧
  (let s : State := (booted [(Adr.BOOT_FL_ADDR, 0x10000),(Adr.BOOT_FL_LEN, 4),(Adr.BOOT_FL_INFO, 128)])
   s.writable .pcie Adr.BOOT_FL_OP (BitVec.ofNat 32 3) ∧ s.flCode 3 = Code.done) ∧
  (let s : State := (booted [(Adr.BOOT_FL_ADDR, 0x10001),(Adr.BOOT_FL_LEN, 4097),(Adr.BOOT_FL_INFO, 128)])
   ∀ x ∈ [(Instr.read .pcie, 0), (.program .pcie, 1), (.erase4k .pcie, 2), (.erase64k .pcie, 3)], s.writable .pcie Adr.BOOT_FL_OP
     (BitVec.ofNat 32 x.2) ∧ s.flCode x.2 ≠ Code.done) ∧
  (let s : State := (booted [(Adr.BOOT_FL_ADDR, 0x10000),(Adr.BOOT_FL_LEN, 4),(Adr.BOOT_FL_INFO, 128)])
   ∀ x ∈ [(Instr.read .pcie, 0), (.program .pcie, 1), (.erase4k .pcie, 2), (.erase64k .pcie, 3)], s.writable .pcie Adr.BOOT_FL_OP
     (BitVec.ofNat 32 x.2) ∧ s.flCode x.2 = Code.done) ∧
  (let s : State := { (booted []) with flops := [.host 0 0x1000 4 []], flash := [(0x1000, 0x3C), (0x1003, 9)] }
   s.flops = .host 0 0x1000 4 [] :: []) ∧
  (let s : State := { (booted []) with flops := [.host 1 0x1000 4 [0xF0, 0x0F, 0xFF]], flash := [(0x1000, 0x3C), (0x1003, 9)] }
   s.flops = .host 1 0x1000 4 [0xF0, 0x0F, 0xFF] :: []) ∧
  (let s : State := { (booted []) with flops := [.host 2 0x1000 4 []], flash := [(0x1000, 0x3C), (0x1003, 9)] }
   s.flops = .host 2 0x1000 4 [] :: []) :=
  by refine ⟨?_, ?_, ?_, ?_, ?_, ?_, ?_, ?_, ?_, ?_, ?_, ?_, ?_, ?_⟩ <;> decide +kernel

theorem witness_PowerTransitions :
  (let s : State := ((booted []).setDomain 9 { Domain.up with phase := .draining, target := .off })
   (s.domain 9).phase = .draining ∧ ∀ k < s.nDma, ∀ c ∈ (s.dch_ k).cur, s.dmaInDomain k c 9 = false) ∧
  (let s : State := ((booted [(Adr.FCT_EVT_EN 1, 5)]).setDomain 4 { Domain.up with
     phase := .entering, target := .off, by_ := some .seq })
   (s.domain 4).phase = .entering ∧ (s.domain 4).pend = none ∧ (s.domain 4).by_ = some .seq ∧ (s.domain 4).target = .off ∧ (s.domain
     4).st ≠ .off) ∧
  (let s : State := ((booted []).setDomain 4 { Domain.up with st := .off, phase := .exiting, target := .on, by_ := some .seq })
   (s.domain 4).phase = .exiting ∧ (s.domain 4).pend = none ∧ (s.domain 4).by_ = some .seq) ∧
  (let s : State := ((booted [(Adr.PWR_WAKE, 4)]).setDomain 16 { Domain.up with st := .ret, target := .ret })
   (2 : Nat) < s.nLnd ∧ (s.domain 16).st ≠ .on ∧ s.flag Adr.PWR_WAKE 2 = true ∧ (s.domain 16).phase = .stable) ∧
  (let s : State := ((booted [(Adr.PWR_WAKE, 0)]).setDomain 16 { Domain.up with st := .ret, target := .ret })
   (2 : Nat) < s.nLnd ∧ (s.domain 16).st ≠ .on ∧ s.flag Adr.PWR_WAKE 2 = false ∧ (s.domain 16).phase = .stable) :=
  ⟨by decide +kernel, by decide +kernel, by decide +kernel, by decide +kernel, by decide +kernel⟩

theorem witness_Clocks :
  (let s : State := { (booted []) with pll := { Plls.fresh with lock := [0, 1, 2], src := (List.range' 2 17).map fun c => (c, 2) } }
   s.roomAt 2 ∧ s.pll.lock.contains 1 = true ∧ s.clkSrc 4 = 2 ∧ s.pllNow 4 = 1) ∧
  (let s : State := { (booted []) with pll := { Plls.fresh with lock := [0] } }
   s.roomAt 2 ∧ s.pll.lock.contains 1 = false ∧ s.pll.xtal = true) ∧
  (let s : State := { (booted []) with pll := { Plls.fresh with lock := [] } }
   s.roomAt 2 ∧ s.pll.xtal = true ∧ s.pll.lock = []) :=
  ⟨by decide +kernel, by decide +kernel, by decide +kernel⟩

theorem witness_VoltageAndHeat :
  (let s : State := { (booted [(Adr.PWR_LOOP, 1),(Adr.PWR_AVS_CFG, 0x28000000 + 650 + 900 * 1024),(Adr.PWR_AVS_STAT, 800)]) with
     thm := { Thm.fresh with nominalMv := 800 } }
   s.flag Adr.PWR_LOOP 0 = true ∧ s.thm.avsHold = false ∧ s.thm.od = false ∧ s.thm.odRaised = false ∧ 655 ≤ s.vdd ∧ s.vdd ≤ 895) ∧
  (let s : State := { (booted [(Adr.PWR_LOOP, 1),(Adr.PWR_AVS_CFG, 0x28000000 + 650 + 900 * 1024),(Adr.PWR_AVS_STAT, 800)]) with
     thm := { Thm.fresh with nominalMv := 800 } }
   s.flag Adr.PWR_LOOP 0 = true ∧ s.thm.avsHold = false ∧ s.thm.od = false ∧ s.thm.odRaised = false ∧ 655 ≤ s.vdd ∧ s.vdd ≤ 895) ∧
  (let s : State := { (booted [(Adr.PWR_LOOP, 1),(Adr.PWR_AVS_CFG, 0x28000000 + 650 + 900 * 1024),(Adr.PWR_AVS_STAT, 800)]) with
     thm := { Thm.fresh with nominalMv := 800 } }
   s.flag Adr.PWR_LOOP 0 = true ∧ s.thm.avsHold = false ∧ s.thm.od = false ∧ s.thm.odRaised = false ∧ 655 ≤ s.vdd ∧ s.vdd ≤ 895) ∧
  (let s : State := (booted [])
   s.fuse.m = false ∧ s.thm.shut = false ∧ s.thm.bad = []) ∧
  (let s : State := (booted [(Adr.THM_DUTY, 0x1FFFFF)])
   s.thm.od = false ∧ (∀ e ∈ s.engines, s.duty e = 8) ∧ s.thm.tj < 105) ∧
  (let s : State := { (booted [(Adr.THM_DUTY, 0x88888888)]) with thm := { Thm.fresh with tj := 115 } }
   s.thm.od = false ∧ 115 ≤ s.thm.tj ∧ s.thm.tj < 125 ∧ ∀ e ∈ s.engines, s.thermClass e = 2) ∧
  (let s : State := { (booted []) with thm := { Thm.fresh with odRaised := true, nominalMv := 800 } }
   s.thm.odRaised = true ∧ s.thm.odReached = false ∧ s.thm.od = false ∧ s.win = [] ∧ s.thm.nominalMv < 1024) :=
  by refine ⟨?_, ?_, ?_, ?_, ?_, ?_, ?_⟩ <;> decide +kernel

theorem witness_Resets :
  ((999 : Nat) < 1000) ∧
  ((2001 : Nat) ≥ 1000) ∧
  (let s : State := State.reset
   s.boot = Boot.fresh ∧ (s.setFld Adr.BOOT_FL_INFO 0 16 128).directory = none) ∧
  (let s : State := { State.reset with boot := { Boot.fresh with held := true } }
   s.boot = { Boot.fresh with held := true } ∧ (s.setFld Adr.BOOT_FL_INFO 0 16 128).directory = none) ∧
  (let s : State := { State.reset with boot := { Boot.fresh with stage := 11 } }
   s.boot.stage = 11 ∧ s.boot.done = false ∧ s.writable .pcie Adr.BOOT_CTL (s.reg Adr.BOOT_CTL ||| 0x100) ∧ (s.restart.setFld
     Adr.BOOT_FL_INFO 0 16 128).directory = none) :=
  ⟨by decide +kernel, by decide +kernel, by decide +kernel, by decide +kernel, by decide +kernel⟩

theorem witness_BootRecords :
  (let s : State := { State.reset with boot := { Boot.fresh with stage := 5 } }
   s.boot.done = false ∧ s.boot.held = false ∧ s.boot.stage = 5 ∧ s.boot.start = none ∧ (s.wr .pcie true Adr.GLB_TICK_RATE 65566).1
     = Code.done ∧ pairHi Adr.GLB_TICK_RATE = false ∧ s.boot.tried = []) ∧
  (let s : State := { State.reset with boot := { Boot.fresh with stage := 5 } }
   s.boot.done = false ∧ s.boot.held = false ∧ s.boot.stage = 5 ∧ s.boot.start = none ∧ (4 : Nat) < 65536 ∧ s.boot.patched = false) ∧
  (let s : State := { State.reset with boot := { Boot.fresh with stage := 5 } }
   s.boot.done = false ∧ s.boot.held = false ∧ s.boot.stage = 5 ∧ s.boot.start = none ∧ s.entryOk ⟨1, 1, 3, 5⟩ = true ∨ s.entryOk
     ⟨2, 5, 1, 0⟩ = true) ∧
  (let s : State := { State.reset with boot := { Boot.fresh with stage := 5 } }
   s.boot.done = false ∧ s.boot.held = false ∧ s.boot.stage = 5 ∧ s.boot.start = none ∧ (([0, 1, 2, 3, 4, 5, 6] : List Nat).map (fun
     n => StartStep.pll n (State.reset.vcoOf n)) ++ (List.range' 2 17).map (fun c => StartStep.clksel c 2)) ≠ [] ∧ ((([0, 1, 2, 3,
     4, 5, 6] : List Nat).map (fun n => StartStep.pll n (State.reset.vcoOf n)) ++ (List.range' 2 17).map (fun c => StartStep.clksel
     c 2))).length ≤ 64 ∧ s.stepsOk (([0, 1, 2, 3, 4, 5, 6] : List Nat).map (fun n => StartStep.pll n (State.reset.vcoOf n)) ++
     (List.range' 2 17).map (fun c => StartStep.clksel c 2)) ([], [], []) = true) ∧
  (let s : State := { State.reset with boot := { Boot.fresh with stage := 5 } }
   s.boot.done = false ∧ s.boot.held = false ∧ s.boot.stage = 5 ∧ s.boot.start = none ∧ s.boot.tried = []) ∧
  (let s : State := { State.reset with boot := { Boot.fresh with stage := 5 } }
   s.boot.done = false ∧ s.boot.held = false ∧ s.boot.stage = 5 ∧ s.boot.start = none ∧ True) :=
  ⟨by decide +kernel, by decide +kernel, by decide +kernel, by decide +kernel, by decide +kernel, by decide +kernel⟩

theorem witness_BootSteps :
  (let s : State := { State.reset with boot := { Boot.fresh with stage := 5 } }
   s.boot.done = false ∧ s.boot.held = false ∧ s.boot.stage = 5 ∧ (650 : Nat) ≤ 650 ∧ (900 : Nat) ≤ 900) ∧
  (let s : State := { State.reset with boot := { Boot.fresh with stage := 5 } }
   s.boot.done = false ∧ s.boot.held = false ∧ s.boot.stage = 5 ∧ (6 : Nat) ≤ 6 ∧ s.pll.xtal = true) ∧
  (let s : State := { State.reset with boot := { Boot.fresh with stage := 5 } }
   s.boot.done = false ∧ s.boot.held = false ∧ s.boot.stage = 5 ∧ (1 : Nat) ≤ 100000) ∧
  (let s : State := { { State.reset with pll := { Plls.fresh with lock := [0, 1, 2, 3] } } with
     boot := { Boot.fresh with stage := 5 } }
   s.boot.done = false ∧ s.boot.held = false ∧ s.boot.stage = 5 ∧ s.stepOk (s.pll.lock, s.pll.src, s.dom.map fun (d : Nat × Domain)
     => (d.1, pstateNo d.2.st)) (.clksel 5 2) = true) ∧
  (let s : State := { { State.reset with pll := { Plls.fresh with lock := [0, 1, 2, 3] } } with
     boot := { Boot.fresh with stage := 5 } }
   s.boot.done = false ∧ s.boot.held = false ∧ s.boot.stage = 5 ∧ s.stepOk (s.pll.lock, s.pll.src, s.dom.map fun (d : Nat × Domain)
     => (d.1, pstateNo d.2.st)) (.power 5 2) = true ∧ (s.domain 5).st ≠ pstate 2 ∧ (s.domain 5).pend = none) ∧
  (let s : State := { { (State.reset.setRegN Adr.DMC_G_CFG 1) with
     pll := { Plls.fresh with lock := [3], src := [(11, 2), (15, 2)] } } with
     boot := { Boot.fresh with stage := 5 } }
   s.boot.done = false ∧ s.boot.held = false ∧ s.boot.stage = 5 ∧ s.stepOk (s.pll.lock, s.pll.src, s.dom.map fun (d : Nat × Domain)
     => (d.1, pstateNo d.2.st)) (.train 1) = true ∧ s.boot.repairs = [] ∧ s.nCh ≤ 16) ∧
  (let s : State := { ([(Adr.DMC_G_CFG, 1), (Adr.DMC_G_RGN_SIZE 0, 8), (Adr.DMC_G_RGN_ATTR 0, 7)].foldl (fun (s : State) (x : Nat ×
       Nat) => s.setRegN x.1 x.2) State.reset) with
     boot := { Boot.fresh with stage := 5, start := some ([.wait 1000], ⟨[], [], ⟨[], true, []⟩⟩) } , dch := (List.range 4).map fun
       c => (c, { DChan.fresh with up := true }) }
   s.boot.done = false ∧ s.boot.held = false ∧ s.boot.stage = 5 ∧ s.boot.start = some ([.wait 1000], ⟨[], [], ⟨[], true, []⟩⟩) ∧
     s.boot.tried = [] ∧ s.boot.logLen = 0 ∧ s.boot.paLen = 0 ∧ s.firstBad = none ∧ s.dramReady = true ∧ s.boot.repairs = []) :=
  by refine ⟨?_, ?_, ?_, ?_, ?_, ?_, ?_⟩ <;> decide +kernel

theorem witness_StepTakesFront :
  (let s : State := { booted [] with pending := [.nop, .ret] }
   s.pending = .nop :: [.ret]) ∧ State.reset.pending = [] := by decide +kernel

theorem witness_EveryCommandCompletes : (booted []).calm = true := by decide +kernel

theorem witness_MicrowordsRoundTrip :
  let i : Instr := .wait 0xFF 3 65535 0
  i.wf = true ∧ i.bare = true ∧ encodeMicro i = some 0x63FFFFFF := by decide +kernel

theorem witness_LinesFollow :
  let s : State := { State.reset with pending := [.powerOn] }
  s.linesRight ∧ ∃ t, step s = .next t :=
  ⟨by unfold State.linesRight; decide +kernel, _, rfl⟩

/-- PATCH_SUBMIT of that object, about to be checked. -/
abbrev patchAsked : State := patchReady.asked 0x50 patchReq
/-- The object opens, where the named standards accept it (log 8). -/
theorem patch_opens
    (point : Config.onP384 (List.replicate 97 0) = true)
    (verifies : ∀ d e, Config.ecdsaVerify (List.replicate 97 0) d e = true)
    (opens : ∀ iv aad c t, Config.gcmOpen iv aad c t = some patchText) :
    patchAsked.openPatch 7 7340032 patchObject = .ok (1, [(16, [9])]) := by
  have key : patchAsked.fuse.keyHash = Config.sha384 (List.replicate 97 0) := rfl
  have pub : (patchObject.drop 64).take 97 = List.replicate 97 0 := by decide +kernel
  have hdr : hdrCode [0x50, 0x56, 0x50, 0x54] patchAsked.patchGrades 7340032 patchObject = Code.done := by decide +kernel
  have len : leNat ((patchObject.drop 8).take 4) = patchObject.length ∧ leNat ((patchObject.drop 16).take 4) = 0 := by decide +kernel
  have recs : parseRecords 41 0 patchText = .ok [(5, (patchText.drop 8).take 20), (0xFFFF, [])] := rfl
  have pat : parsePatch 7 ((patchText.drop 8).take 20) = some (1, [(16, [9])]) := by decide +kernel
  have n : patchText.length = 40 := rfl
  have img : patchAsked.openImage patchObject = .ok patchText := by
    simp only [State.openImage, State.signed, pub, key, point, verifies, opens]
    simp
  unfold State.openPatch
  simp only [hdr, len, img, n, recs, pat]
  simp

/-- PATCH_SUBMIT, where the named standards accept the object (log 8). -/
theorem witness_patch_submit
    (point : Config.onP384 (List.replicate 97 0) = true)
    (verifies : ∀ d e, Config.ecdsaVerify (List.replicate 97 0) d e = true)
    (opens : ∀ iv aad c t, Config.gcmOpen iv aad c t = some patchText) :
    patchReady.takesRequest patchReq ∧ patchAsked.reqCode 2 = Code.done := by
  have h := patch_opens point verifies opens
  have op : patchAsked.winOp 2 = 0x50 := by decide +kernel
  have target : patchAsked.winTarget 2 = 0 := by decide +kernel
  have kinds : (opKinds 0x50).isNone = false := by decide
  have ok : patchAsked.targetOk 0x50 0 0 = true := by decide +kernel
  have second : patchAsked.winReq 2 1 = 0 := by decide +kernel
  have args : patchAsked.argCode 2 0x50 0 = Code.done := by decide +kernel
  have dom : targetDom 0 0 = none := by decide +kernel
  have a : patchAsked.winArg 2 0 = 0x100000 ∧ patchAsked.winArg 2 1 = 0 ∧ patchAsked.winArg 2 2 = 344 := by decide +kernel
  have on : patchAsked.dramOn = true := by decide +kernel
  have base : patchAsked.boot.ucode = 7 := rfl
  have mem : memRead 0 patchAsked.dram 0x100000 344 = patchObject := by decide +kernel
  have room : ¬ patchAsked.boot.paOff + patchAsked.boot.paLen < patchAsked.patchEnd + (storedPatch patchObject).length := by
    decide +kernel
  refine ⟨by decide +kernel, ?_⟩
  unfold State.reqCode
  simp only [op, target, kinds, second, args]
  simp [ok, dom]
  unfold State.stateCode
  simp only [a]
  have top : ¬ patchAsked.dramTop < (0x100000 : Word).toNat + 2 ^ 32 * (0 : Word).toNat + (344 : Word).toNat := by decide +kernel
  have at_ : (0x100000 : Word).toNat + 2 ^ 32 * (0 : Word).toNat = 0x100000 ∧ (344 : Word).toNat = 344 := by decide
  rw [if_neg top]
  simp only [at_, on, base]
  rw [mem, h]
  simp [room]

/-- The image opens on any device that holds it in slot A and has that key, where the named standards accept it (log 8). -/
theorem image_opens (s : State)
    (point : Config.onP384 (List.replicate 97 0) = true)
    (verifies : ∀ d e, Config.ecdsaVerify (List.replicate 97 0) d e = true)
    (opens : ∀ iv aad c t, Config.gcmOpen iv aad c t = some imageText)
    (key : s.fuse.keyHash = Config.sha384 (List.replicate 97 0)) (area : s.flRead 0x10000 552 = imageBytes) :
    s.openImage (s.flRead 0x10000 552) = .ok imageText := by
  have pub : (imageBytes.drop 64).take 97 = List.replicate 97 0 := by decide +kernel
  rw [area]
  simp only [State.openImage, State.signed, pub, key, point, verifies, opens]
  simp

/-- What Obligations.Resets asks of a boot that completes, but for the named standards, from a state v about to boot. -/
abbrev bootsFrom (v : State) : Prop :=
  let SE : StartEnv := ⟨[], [], ⟨[], true, []⟩⟩
  let w := v.slotA flashDir
  let head := w.flRead 0x10000 288
  let t := w.bootBody 3 SE imageText
  let p := t.readLog.storedPatches (t.readLog.boot.paLen / 16 + 1) t.readLog.boot.paOff 0
  let q := p.2.runSteps bootSteps 0 SE
  (v.setFld Adr.BOOT_FL_INFO 0 16 128).directory = some (0, flashDir) ∧ (dirAreas flashDir).getD 0 (0, 0) = (0x10000, 0x10000) ∧
  hdrCode [0x50, 0x56, 0x49, 0x4D] [b2n v.fuse.m] (min 7340032 0x10000) head = Code.done ∧
  (leNat ((head.drop 8).take 4) = 552 ∧ leNat ((head.drop 16).take 4) = 3 ∧ w.flRead 0x10000 552 = imageBytes) ∧
  (t.boot.tried = [] ∧ t.boot.start = some (bootSteps, SE) ∧ p.1 = none ∧ p.2.firstBad = none ∧ q.1 = none ∧
    q.2.dramReady = true ∧ q.2.slot? = some 0)

theorem slotA_flash (v : State) (l : List Byte) : (v.slotA l).flash = v.flash := rfl

/-- Those facts, of a device with that flash. -/
theorem bootsFrom_of (v : State) (flash : v.flash = memWrite 0xFF (memWrite 0xFF [] 0 flashDir) 0x10000 imageBytes) (grade : v.fuse.m = false)
    (size : (v.setFld Adr.BOOT_FL_INFO 0 16 128).flashSize = 0x1000000)
    (rest :
      let SE : StartEnv := ⟨[], [], ⟨[], true, []⟩⟩
      let t := (v.slotA flashDir).bootBody 3 SE imageText
      let p := t.readLog.storedPatches (t.readLog.boot.paLen / 16 + 1) t.readLog.boot.paOff 0
      let q := p.2.runSteps bootSteps 0 SE
      t.boot.tried = [] ∧ t.boot.start = some (bootSteps, SE) ∧ p.1 = none ∧ p.2.firstBad = none ∧ q.1 = none ∧
        q.2.dramReady = true ∧ q.2.slot? = some 0) : bootsFrom v := by
  have n : flashDir.length = 64 ∧ imageBytes.length = 552 := by decide +kernel
  have image (k : Nat) (h : k ≤ 552) : memRead 0xFF v.flash 0x10000 k = imageBytes.take k := by
    have := memRead_memWrite_in 0xFF (memWrite 0xFF [] 0 flashDir) 0x10000 0 k imageBytes (by omega)
    rw [flash]; simpa using this
  have dir : memRead 0xFF v.flash 0 64 = flashDir := by
    have := memRead_memWrite_in 0xFF [] 0 0 64 flashDir (by omega)
    rw [flash]
    rw [memRead_memWrite_out _ _ _ _ _ _ (by omega), this, List.drop_zero, List.take_of_length_le (by omega)]
  have ok : dirOk 0x1000000 flashDir = true := by decide +kernel
  have fl (a k : Nat) : (v.slotA flashDir).flRead a k = memRead 0xFF v.flash a k := by
    simp only [State.flRead, slotA_flash]
  have head : (v.slotA flashDir).flRead 0x10000 288 = imageBytes.take 288 := (fl _ _).trans (image 288 (by omega))
  have all : (v.slotA flashDir).flRead 0x10000 552 = imageBytes := by
    rw [fl, image 552 (by omega), List.take_of_length_le (by omega)]
  have good : hdrCode [0x50, 0x56, 0x49, 0x4D] [b2n false] (min 7340032 0x10000) (imageBytes.take 288) = Code.done ∧
      leNat (((imageBytes.take 288).drop 8).take 4) = 552 ∧ leNat (((imageBytes.take 288).drop 16).take 4) = 3 ∧
      (dirAreas flashDir).getD 0 (0, 0) = (0x10000, 0x10000) := by decide +kernel
  refine ⟨?_, good.2.2.2, ?_, ?_, rest⟩
  · have d : (v.setFld Adr.BOOT_FL_INFO 0 16 128).flRead 0 64 = flashDir := dir
    simp only [State.directory, size, d, List.find?_cons, ok]
  · rw [head, grade]; exact good.1
  · rw [head, all]; exact ⟨good.2.1, good.2.2.1, rfl⟩

theorem flashed_flash : flashed.flash = memWrite 0xFF (memWrite 0xFF [] 0 flashDir) 0x10000 imageBytes := by rw [flashed]

theorem witness_boots : flashed.boot = Boot.fresh ∧ bootsFrom flashed :=
  ⟨by decide +kernel, bootsFrom_of _ flashed_flash (by decide +kernel) (by decide +kernel) (by decide +kernel)⟩

theorem witness_boots_supply :
  let s : State := { flashed with boot := { Boot.fresh with held := true } }
  s.boot = { Boot.fresh with held := true } ∧ bootsFrom (s.modBoot fun b => { b with held := false }) :=
  ⟨by decide +kernel, bootsFrom_of _ (by rw [← flashed_flash]; rfl) (by decide +kernel) (by decide +kernel) (by decide +kernel)⟩

theorem witness_boots_again :
  let s : State := { flashed with boot := { Boot.fresh with stage := 11 } }
  (s.boot.stage = 11 ∧ s.boot.done = false ∧ s.writable .pcie Adr.BOOT_CTL (s.reg Adr.BOOT_CTL ||| 0x100)) ∧ bootsFrom s.restart :=
  ⟨by decide +kernel, bootsFrom_of _ (by rw [← flashed_flash]; rfl) (by decide +kernel) (by decide +kernel) (by decide +kernel)⟩

end
end

section
/-! PROOFS. An edge of the tick's source (R19): one that comes too soon is counted, every other one is a tick, and before it a
holdover ends. -/

namespace Sys2Proof.Machine

section
variable (s : State)

/-! ### Counters, and registers at another instant -/

theorem bump_onlyRegs (a : Nat) : OnlyRegs s (s.bump a) [a] :=
  ⟨rfl, fun _ n => reg_setReg_ne _ _ (by simpa using n)⟩

theorem bump_counted (a : Nat) : Counted s (s.bump a) a := reg_setReg_same _ _ _

@[simp] theorem at__now (t : Nat) : (s.at_ t).clk.now = max s.clk.now t := rfl
@[simp] theorem at__lastTick (t : Nat) : (s.at_ t).clk.lastTick = s.clk.lastTick := rfl
@[simp] theorem at__count (t : Nat) : (s.at_ t).clk.count = s.clk.count := rfl
@[simp] theorem at__waiting (t : Nat) : (s.at_ t).clk.waiting = s.clk.waiting := rfl
@[simp] theorem at__tickNum (t : Nat) : (s.at_ t).tickNum = s.tickNum := rfl
@[simp] theorem at__tickDen (t : Nat) : (s.at_ t).tickDen = s.tickDen := rfl
@[simp] theorem at__tickTol (t : Nat) : (s.at_ t).tickTol = s.tickTol := rfl

/-- Which edge is selected does not depend on the instant. -/
@[simp] theorem at__selected (t : Nat) (e : TickEdge) : (s.at_ t).selected e = s.selected e := by
  cases e <;> rfl

end

section
variable {s : State}

/-! ### When an edge is taken -/

/-- Only sources 0 and 1 have edges (R17). -/
theorem tickSrc_lt_two_of_selected {e : TickEdge} (h : s.selected e = true) : s.tickSrc < 2 := by
  cases e with
  | tickIn rising =>
    simp only [State.selected, Bool.and_eq_true, decide_eq_true_eq] at h
    omega
  | sensor g =>
    simp only [State.selected, Bool.and_eq_true, decide_eq_true_eq] at h
    omega

/-- The bounds of R19, after a first tick. -/
theorem early_eq_false_iff {last : Nat} (h : s.clk.lastTick = some last) :
    s.early = false ↔ 1000000 ≤ s.clk.now - last ∧
      (256 - s.tickTol) * s.tickDen * 1000000000 ≤ (s.clk.now - last) * 256 * s.tickNum := by
  simp only [State.early, h, Bool.or_eq_false_iff, decide_eq_false_iff_not, Nat.not_lt]

/-- An accepted edge ends the holdover (R20). -/
def State.holdoverEnds (s : State) : State :=
  if s.clk.holdover then { s.raise Adr.GLB_EVT 2 with clk := { s.clk with holdover := false } } else s

theorem tickEdge_of_early {e : TickEdge} (boot : s.boot.done = true) (sel : s.selected e = true) (h : s.early = true) :
    s.tickEdge e = s.bump Adr.GLB_TICK_EARLY := by
  simp [State.tickEdge, boot, sel, h]

theorem tickEdge_of_not_early {e : TickEdge} (boot : s.boot.done = true) (sel : s.selected e = true) (h : s.early = false) :
    s.tickEdge e = s.holdoverEnds.tick := by
  simp [State.tickEdge, State.holdoverEnds, boot, sel, h]

theorem holdoverEnds_clk (s : State) : s.holdoverEnds.clk = { s.clk with holdover := false } := by
  unfold State.holdoverEnds
  split
  · rfl
  · next h => rw [← Bool.eq_false_iff.mpr h]

theorem holdoverEnds_tickSrc (s : State) : s.holdoverEnds.tickSrc = s.tickSrc := by
  unfold State.holdoverEnds
  split
  · exact congrArg (bits · 0 2) (reg_setReg_ne s _ (by decide))
  · rfl

/-! ### What a tick does to time -/

/-- The steps of a tick after the counter (R26) leave the time as the counter set it; the tick then waits for the sequencer. -/
theorem tick_clk (s : State) : ∃ k, s.tick.clk =
    { s.countTick.clk with lastK := k, waiting := s.clk.waiting ++ [s.countTick.clk.count] } := ⟨_, rfl⟩

/-- A later tick of a source other than PTP time counts one (R21). -/
theorem countTick_clk {last : Nat} (h : s.clk.lastTick = some last) (src : s.tickSrc ≠ 2) :
    s.countTick.clk =
      { s.clk with count := (s.clk.count + 1) % 2 ^ 48, prevTick := s.clk.lastTick, lastTick := some s.clk.now } := by
  simp only [State.countTick, src, h, if_false]

/-- An accepted edge names the instant, counts, and leaves its number for the sequencer. -/
theorem tickEdge_clk_of_not_early {e : TickEdge} {last : Nat} (boot : s.boot.done = true) (sel : s.selected e = true)
    (h : s.clk.lastTick = some last) (ok : s.early = false) :
    (s.tickEdge e).clk.lastTick = some s.clk.now ∧ (s.tickEdge e).clk.count = (s.clk.count + 1) % 2 ^ 48 ∧
      (s.tickEdge e).clk.waiting = s.clk.waiting ++ [(s.clk.count + 1) % 2 ^ 48] := by
  have clk := holdoverEnds_clk s
  have src : s.holdoverEnds.tickSrc ≠ 2 := by
    have := tickSrc_lt_two_of_selected sel
    rw [holdoverEnds_tickSrc]; omega
  have counted := countTick_clk (s := s.holdoverEnds) (by rw [clk]; exact h) src
  obtain ⟨k, ticked⟩ := tick_clk s.holdoverEnds
  simp [tickEdge_of_not_early boot sel ok, ticked, counted, clk]

end

/-- Settles O17: an edge is not early exactly within both bounds of R19; one that is early is counted, any other is a tick. -/
theorem earlyEdges : Obligations.EarlyEdges := by
  unfold Obligations.EarlyEdges
  intro s e t last boot sel h d ok
  have boot' : (s.at_ t).boot.done = true := by simpa using boot
  have sel' : (s.at_ t).selected e = true := by simpa using sel
  have last' : (s.at_ t).clk.lastTick = some last := by simpa using h
  have bounds : (s.at_ t).early = false ↔ ok := by simpa using early_eq_false_iff last'
  constructor
  · intro hok
    have ticked := tickEdge_clk_of_not_early boot' sel' last' (bounds.mpr hok)
    exact ⟨(s.at_ t).tickEdge e, rfl, by simpa using ticked⟩
  · intro bad
    have early : (s.at_ t).early = true := eq_true_of_ne_false fun n => bad (bounds.mp n)
    exact ⟨(s.at_ t).tickEdge e, rfl, by
      rw [tickEdge_of_early boot' sel' early]
      exact ⟨bump_onlyRegs _ _, bump_counted (s.at_ t) _⟩⟩

end Sys2Proof.Machine
end

section
/-! PROOFS. What follows a command (`State.finish`) leaves the DMA channels alone: drains that go on, the collector with all that a
lasting fault does, and host fences. -/

namespace Sys2Proof.Machine

/-- The fabric and the pools never touch a DMA channel. -/
theorem fabInv_dma : FabInv State.dma where
  qf _ _ := rfl
  regs _ _ := rfl
  pools _ _ := rfl
  dram _ _ := rfl
  flt _ _ := rfl
  answers _ _ := rfl
  sent _ _ := rfl
  hostOpen _ _ := rfl

theorem iter_dma {α : Type} {f : α → State → State} (h : ∀ a s, (f a s).dma = s.dma) (l : List α) (s : State) :
    (iter l f s).dma = s.dma := iter_keeps State.dma l f h s

section
variable (s : State)

/-! ### One update -/

@[simp] theorem setRegN_dma (a n : Nat) : (s.setRegN a n).dma = s.dma := rfl
@[simp] theorem setFld_dma (a lo w x : Nat) : (s.setFld a lo w x).dma = s.dma := rfl
@[simp] theorem bump_dma (a : Nat) : (s.bump a).dma = s.dma := rfl
@[simp] theorem raise_dma (a n : Nat) : (s.raise a n).dma = s.dma := rfl
@[simp] theorem codEvt_dma (e n : Nat) : (s.codEvt e n).dma = s.dma := rfl
@[simp] theorem fltEvt_dma (n : Nat) : (s.fltEvt n).dma = s.dma := rfl
@[simp] theorem freshWord_dma : s.freshWord.2.dma = s.dma := rfl
@[simp] theorem modFu_dma (u : Nat) (f : FUnit → FUnit) : (s.modFu u f).dma = s.dma := rfl
@[simp] theorem modEng_dma (e : Nat) (f : FEngine → FEngine) : (s.modEng e f).dma = s.dma := rfl
@[simp] theorem modPic_dma (k o : Nat) (f : FPic → FPic) : (s.modPic k o f).dma = s.dma := rfl
@[simp] theorem setBand_dma (k o n : Nat) (b : Band) : (s.setBand k o n b).dma = s.dma := rfl
@[simp] theorem setUnd_dma (e : Nat) (l : List Undec) : (s.setUnd e l).dma = s.dma := rfl
@[simp] theorem modCe_dma (e : Nat) (f : CEngine → CEngine) : (s.modCe e f).dma = s.dma := rfl
@[simp] theorem iter_modCe_dma (l : List Nat) (f : Nat → State → CEngine → CEngine) :
    (iter l (fun e s => s.modCe e (f e s)) s).dma = s.dma := iter_dma (fun e s => modCe_dma s e (f e s)) l s
@[simp] theorem modCx_dma (c : Nat) (f : Ctx → Ctx) : (s.modCx c f).dma = s.dma := rfl
@[simp] theorem modLg_dma (g : Nat) (f : LGroup → LGroup) : (s.modLg g f).dma = s.dma := rfl
@[simp] theorem addCand_dma (ch key : Nat) : (s.addCand ch key).dma = s.dma := rfl
@[simp] theorem evacuate_dma (ch : Nat) : (s.evacuate ch).dma = s.dma := rfl
@[simp] theorem powerBegin_dma (d : Nat) (st : PState) (b : ReqBy) : (s.powerBegin d st b).dma = s.dma := rfl

/-! ### Reports, event lines and the queues -/

@[simp] theorem reportHw_dma (b c u x y a : Nat) : (s.reportHw b c u x y a).dma = s.dma := fabInv_dma.reportHw ..
@[simp] theorem sendPkt_dma (q p t : Nat) (l : List Byte) (b : Bool) : (s.sendPkt q p t l b).2.dma = s.dma := fabInv_dma.sendPkt ..
@[simp] theorem startNext_dma (q p : Nat) : (s.startNext q p).dma = s.dma := fabInv_dma.startNext ..
@[simp] theorem rewindTo_dma (q c : Nat) : (s.rewindTo q c).dma = s.dma := fabInv_dma.rewindTo ..
@[simp] theorem dropHeld_dma (q : Nat) (p : Nat → Bool) : (s.dropHeld q p).dma = s.dma := fabInv_dma.dropHeld ..

@[simp] theorem occur_dma (e : Nat) : (s.occur e).dma = s.dma := by
  unfold State.occur
  split
  · rfl
  · simp [apply_ite State.dma]

/-! ### The Facet engines (R129, R454) -/

@[simp] theorem undoBand_dma (e : Nat) (w : FWork) : (s.undoBand e w).dma = s.dma := by
  refine iter_dma (fun c s => ?_) _ s
  split
  · simp
  · rfl

@[simp] theorem laneWrite_dma (e : Nat) (u : Undec) : (s.laneWrite e u).2.dma = s.dma := fabInv_dma.enqueue ..

@[simp] theorem runLane_dma (e lane n : Nat) : (s.runLane e lane n).dma = s.dma := by
  induction n generalizing s with
  | zero => rfl
  | succ n ih =>
    unfold State.runLane
    split
    · rfl
    · split
      · simp [ih, apply_ite State.dma]
      · rfl

@[simp] theorem runLanes_dma (e : Nat) : (s.runLanes e).dma = s.dma :=
  iter_dma (fun lane s => runLane_dma s e lane 4) _ s

@[simp] theorem startBand_dma (e : Nat) : (s.startBand e).dma = s.dma := by
  unfold State.startBand
  dsimp only
  split
  · split
    · rfl
    · split
      · rfl
      · simp [apply_ite State.dma]
  · rfl

@[simp] theorem handBand_dma (k o n slot : Nat) : (s.handBand k o n slot).dma = s.dma := by
  unfold State.handBand
  split
  · rfl
  · simp

@[simp] theorem handOn_dma (e : Nat) : (s.handOn e).dma = s.dma := by
  unfold State.handOn
  split
  · rfl
  · refine List.foldlRecOn (motive := fun a : Nat × State => a.2.dma = s.dma) _ _ ?_ ?_
    · dsimp only
      split <;> simp
    · intro a ha b _
      split
      · simpa using ha
      · exact ha

@[simp] theorem retireFct_dma (e : Nat) : (s.retireFct e).2.dma = s.dma := by
  simp only [State.retireFct, occur_dma, reportHw_dma, raise_dma, handOn_dma]
  split
  · simp [apply_ite State.dma]
  · rfl

/-! ### The codec engines (R161) -/

@[simp] theorem dropFb_dma (c : Nat) (b : Option Nat) : (s.dropFb c b).dma = s.dma := by
  cases b <;> rfl

@[simp] theorem decAbort_dma (c : Nat) : (s.decAbort c).dma = s.dma := by
  unfold State.decAbort
  split
  · rfl
  · simp

@[simp] theorem codEnd_dma (c : Nat) : (s.codEnd c).dma = s.dma := by
  unfold State.codEnd
  split
  · rfl
  · simp [apply_ite State.dma]

@[simp] theorem loadBank_dma (c : Nat) : (s.loadBank c).dma = s.dma := by
  simp [State.loadBank, apply_ite State.dma]

@[simp] theorem startPic_dma (c e : Nat) : (s.startPic c e).dma = s.dma := by
  unfold State.startPic
  dsimp only
  split
  · rfl
  · simp [apply_ite State.dma]

@[simp] theorem codServe_dma (e c : Nat) : (s.codServe e c).dma = s.dma := by
  simp [State.codServe, apply_ite State.dma]

@[simp] theorem codNext_dma (e : Nat) : (s.codNext e).dma = s.dma := by
  unfold State.codNext
  dsimp only
  split
  · rfl
  · split <;> simp [apply_ite State.dma]

@[simp] theorem retireCod_dma (e : Nat) : (s.retireCod e).dma = s.dma := by
  have ended (l : List Nat) : (iter l (fun c s => (s.codEnd c).decAbort c) s).dma = s.dma := iter_dma (fun c s => by simp) l s
  unfold State.retireCod
  dsimp only
  rw [iter_dma (fun e s => codNext_dma s e), occur_dma]
  dsimp only
  split <;> simp [ended]

/-! ### Requests (R378, R424) -/

@[simp] theorem queuePkt_dma (q : Nat) (l : List Byte) : (s.queuePkt q l).dma = s.dma := by simp [State.queuePkt]

@[simp] theorem winDone_dma (w code ans0 : Nat) (tick : Bool) : (s.winDone w code ans0 tick).dma = s.dma := by
  have answers (l : List (Nat × Nat)) : (iter l (fun a s => s.setRegN (Adr.HST_W_ANS w a.2) a.1) s).dma = s.dma :=
    iter_dma (fun a s => setRegN_dma s _ a.1) l s
  unfold State.winDone
  split
  · rfl
  · simp [apply_ite State.dma, answers]

@[simp] theorem powerDone_dma (d : Nat) (b : ReqBy) (code : Nat) : (s.powerDone d b code).dma = s.dma := by
  unfold State.powerDone
  dsimp only
  split
  · split <;> simp
  · rfl

@[simp] theorem powerReq_dma (d : Nat) (st : PState) (b : ReqBy) : (s.powerReq d st b).dma = s.dma := by
  unfold State.powerReq
  dsimp only
  split
  · simp [apply_ite State.dma]
  · rw [setDomain_dma]
    split <;> simp

@[simp] theorem wakeSpare_dma : s.wakeSpare.dma = s.dma := by
  unfold State.wakeSpare
  split <;> simp [apply_ite State.dma]

/-! ### The collector (R449 to R457) -/

@[simp] theorem logEntry_dma (k t i d : Nat) : (s.logEntry k t i d).dma = s.dma := by
  simp [State.logEntry, apply_ite State.dma]

@[simp] theorem logUnit_dma (k u : Nat) : (s.logUnit k u).dma = s.dma := logEntry_dma ..

@[simp] theorem exportRec_dma (r : FRec) : (s.exportRec r).2.dma = s.dma := by
  simp [State.exportRec, apply_ite Prod.snd, apply_ite State.dma]

@[simp] theorem keepRec_dma (r : FRec) : (s.keepRec r).dma = s.dma := by
  unfold State.keepRec
  dsimp only
  split
  · split <;> simp
  · rfl

@[simp] theorem noteRetired_dma (u : Nat) : (s.noteRetired u).dma = s.dma := by
  simp [State.noteRetired, apply_ite State.dma]

@[simp] theorem autoRetire_dma (ch : Nat) : (s.autoRetire ch).dma = s.dma := by
  simp [State.autoRetire, apply_ite State.dma]

@[simp] theorem lastingUnit_dma (r : FRec) (u : Nat) : (s.lastingUnit r u).2.dma = s.dma := by
  simp [State.lastingUnit, apply_ite Prod.snd, apply_ite State.dma]

@[simp] theorem pinIf_dma (n : Nat) : (s.pinIf n).dma = s.dma := by
  simp [State.pinIf, apply_ite State.dma]

@[simp] theorem decide_dma (r : FRec) (o : Outc) : (s.decide r o).dma = s.dma := by
  unfold State.decide
  dsimp only
  split
  · rw [keepRec_dma, logEntry_dma]
    split <;> simp
  · split <;> simp
  · simp

@[simp] theorem judgeGo_dma (r : FRec) : (State.judge.go s r).dma = s.dma := by
  simp [State.judge.go, apply_ite State.dma]

@[simp] theorem judge_dma (r : FRec) : (s.judge r).dma = s.dma := by
  unfold State.judge
  split <;> simp [apply_ite State.dma]

@[simp] theorem accept_dma (r : FRec) : (s.accept r).dma = s.dma := by
  unfold State.accept
  dsimp only
  split <;> simp

@[simp] theorem takeOne_dma : s.takeOne.dma = s.dma := by
  unfold State.takeOne
  split
  · rfl
  · split <;> simp

@[simp] theorem collect_dma (n : Nat) : (s.collect n).dma = s.dma := by
  induction n generalizing s with
  | zero => rfl
  | succ n ih => simp [State.collect, ih, apply_ite State.dma]

/-! ### Fences of the host, and the whole -/

@[simp] theorem fenceAnswer_dma (w kind : Nat) : (s.fenceAnswer w kind).dma = s.dma := by
  simp [State.fenceAnswer, apply_ite State.dma]

@[simp] theorem fenceScan_dma : s.fenceScan.dma = s.dma := by
  unfold State.fenceScan
  refine iter_dma (fun x s => ?_) _ s
  split <;> simp [apply_ite State.dma]

/-- What follows a command leaves every DMA channel as the command's own effect left it. -/
@[simp] theorem finish_dma (u : State) : (s.finish u).dma = u.dma := by
  simp [State.finish, fabInv_dma.resumeDrains]

end

end Sys2Proof.Machine
end

section
/-! PROOFS. The halt of a DMA channel (R364) comes when its descriptor starts, which a PRE_FENCE that is not met puts off (R358). -/

namespace Sys2Proof.Machine

theorem exec_descriptorRead (k : Nat) (words : List Word) (s : State) :
    exec (.descriptorRead k words) s = runs s fun s => s.dmaFetch k words := rfl

/-- A descriptor in a ring of the data memory waits for its PRE_FENCE: till then reading it changes nothing. -/
theorem dmaFetch_of_not_preMet {s : State} {k : Nat} (words : List Word) (loc : s.ringLoc k = 2)
    (own : bit (dWord (s.dmemWords (s.ringAt k) 16) 0) 0 = true)
    (fence : s.dmaPreMet (s.dmemWords (s.ringAt k) 16) false = false) : s.dmaFetch k words = s := by
  simp [State.dmaFetch, loc, own, fence]

/-- Whatever makes the outcome of a read that changes nothing has the channels as they were. -/
theorem dma_eq_of_makes_descriptorRead {s : State} {k : Nat} {words : List Word} {P : State → Prop}
    (idle : s.dmaFetch k words = s) (made : Makes (.descriptorRead k words) s P) : ∃ u, u.dma = s.dma ∧ P u := by
  obtain ⟨u, e, hu⟩ := made
  rw [exec_descriptorRead, runs, idle] at e
  have same : s.finish s = s.finish u := Host.Outcome.next.inj e
  exact ⟨u, by rw [← finish_dma s u, ← same, finish_dma], hu⟩

/-- Channel 0 has one descriptor in a ring of the data memory: its source is of the reserved kind 3, and its PRE_FENCE is a
FENCE_RW. A read of the engine's port (11) has not been answered. -/
def fencedDescriptor : State :=
  { (booted [(Adr.DMA_CTL, 1), (Adr.DMA_C_CTL 0, 1), (Adr.DMA_C_RING_CFG 0, 2 + 16 * 2),
      (Adr.SEQ_DMEM 0, 1 + 2 * 3 + 256 * 2)]).setDma 0 { DmaChan.fresh with tail := 1 } with
    dch := [(0, { DChan.fresh with reads := [⟨11, 0, [], 0⟩] })] }

/-- It meets what O43 asks of a descriptor that is refused. -/
theorem fencedDescriptor_refused :
    let s := fencedDescriptor
    let d := s.dmemWords (s.ringAt 0) 16
    s.fuse.m = false ∧ s.dmaOn 0 = true ∧ (s.dch_ 0).halted = false ∧ (s.dch_ 0).cur = none ∧ (s.dch_ 0).head ≠ (s.dch_ 0).tail ∧
      s.ringLoc 0 = 2 ∧ bit (dWord d 0) 0 = true ∧ s.dmaCode 0 d ≠ Code.done := by decide +kernel

/-- Its fence is not met. -/
theorem fencedDescriptor_waits :
    fencedDescriptor.dmaPreMet (fencedDescriptor.dmemWords (fencedDescriptor.ringAt 0) 16) false = false := by decide +kernel

/-- Refutes O43: its first clause does not ask that the descriptor's PRE_FENCE is met. Where a FENCE_RW still waits for a read of
the engine's port, a descriptor that would be refused is left in its ring, and the channel does not halt. -/
theorem not_dmaHalt : ¬ Obligations.DmaHalt := by
  unfold Obligations.DmaHalt
  intro h
  obtain ⟨grade, on, running, idle, pending, loc, own, bad⟩ := fencedDescriptor_refused
  obtain ⟨refused, -⟩ := h fencedDescriptor 0 .pcie [] (by decide)
  obtain ⟨u, same, halts, -⟩ := dma_eq_of_makes_descriptorRead (dmaFetch_of_not_preMet [] loc own fencedDescriptor_waits)
    (refused grade on running idle pending loc own bad)
  rw [State.dch_, same] at halts
  exact Bool.false_ne_true (running.symm.trans halts)

end Sys2Proof.Machine
end

section
/-! PROOFS. The bits that software sets in IC_PEND_SET (R390): what a write, a claim and a complete do to them. -/

namespace Sys2Proof.Machine

/-! ### Bits of a word -/

theorem bit_eq_getLsbD (v : Word) (n : Nat) : bit v n = v.getLsbD n :=
  (Nat.testBit_eq_decide_div_mod_eq (x := v.toNat) (i := n)).symm

/-- Putting 0 into a field of one bit clears that bit. -/
theorem bit_putBits_zero (v : Word) (n : Nat) : bit (putBits v n 1 0) n = false := by
  have lt : v.toNat - bits v n 1 * 2 ^ n < 2 ^ 32 := Nat.lt_of_le_of_lt (Nat.sub_le _ _) v.isLt
  have cleared : bits (putBits v n 1 0) n 1 = 0 := by
    simp only [putBits, bits, Nat.zero_mod, Nat.zero_mul, Nat.add_zero, Nat.pow_one] at lt ⊢
    rw [BitVec.toNat_ofNat, Nat.mod_eq_of_lt lt, Nat.mul_comm, Nat.sub_mul_div]
    omega
  simp [bit, cleared]

/-- Joining the powers of two of the positions that pass a test sets those bits and no other. -/
theorem getLsbD_foldl_or_two_pow {w : Nat} (p : Nat → Bool) (l : List Nat) (m : BitVec w) {k : Nat} (hk : k < w) :
    (l.foldl (fun m b => if p b then m ||| BitVec.ofNat w (2 ^ b) else m) m).getLsbD k =
      (m.getLsbD k || (decide (k ∈ l) && p k)) := by
  induction l generalizing m with
  | nil => simp
  | cons b l ih =>
    have joined : (if p b then m ||| BitVec.ofNat w (2 ^ b) else m).getLsbD k = (m.getLsbD k || (decide (b = k) && p b)) := by
      split
      · next pb => rw [BitVec.getLsbD_or, BitVec.getLsbD_ofNat, Nat.testBit_two_pow, pb, decide_eq_true hk,
          Bool.true_and, Bool.and_true]
      · next pb => simp [pb]
    rw [List.foldl_cons, ih, joined]
    by_cases e : b = k
    · subst e; cases p b <;> simp
    · simp [e, Ne.symm e]

/-! ### The registers -/

theorem regRow_pendSet : ∀ i < 8, regRow (Adr.IC_PEND_SET i) = some ⟨0x34480, [(8, 4)], .w1s, 0, 0xFFFFFFFF⟩ := by decide +kernel

theorem regAcc_claim : ∀ t < 4, ∀ fast : Bool, regAcc (Adr.IC_CLAIM (b2n fast) t) = some .rw := by decide +kernel

/-- IC_PEND_SET is 0 after a reset, whatever is fused. -/
theorem regReset_pendSet (f : Fuse) {i : Nat} (h : i < 8) : regReset f (Adr.IC_PEND_SET i) = 0 := by
  have unfused : fusedReset f (Adr.IC_PEND_SET i) = none :=
    match i, h with
    | 0, _ | 1, _ | 2, _ | 3, _ | 4, _ | 5, _ | 6, _ | 7, _ => rfl
    | _ + 8, h => absurd h (by omega)
  rw [regReset, unfused, regRow_pendSet i h]
  rfl

/-- The offset of a claim register names its class and target; it is no half of a pair, no window of a queue and not the clock. -/
theorem claim_offset : ∀ t < 4, ∀ fast : Bool, let a := Adr.IC_CLAIM (b2n fast) t
    (a / 0x1000 % 4 = t ∧ decide (0x38000 ≤ a) = fast) ∧ (0x30000 ≤ a ∧ a < 0x3C000 ∧ a / 0x4000 ≠ 13 ∧ a % 0x1000 = 0x104) ∧
      pairLo a = false ∧ pairHi a = false ∧ inWindow a = false ∧ a ≠ Adr.PTP_TIME_NS := by decide

section
variable (s : State)

/-! ### The software bit of a source -/

theorem soft_eq {n : Nat} (h : n < 256) : s.soft n = (s.reg (Adr.IC_PEND_SET (n / 32))).getLsbD (n % 32) := by
  rw [State.soft, z_eq_reg _ _ (regReset_pendSet _ (by omega)), bit_eq_getLsbD]

/-- A write of IC_PEND_SET sets the bits of the sources that exist, and clears none. -/
theorem soft_pendSet {i k : Nat} (v : Word) (h : k < 256) :
    (s.pendSet i v).soft k = (s.soft k || (decide (k / 32 = i) && (bit v (k % 32) && s.hasSource k))) := by
  have k32 : k % 32 < 32 := Nat.mod_lt _ (by decide)
  rw [soft_eq _ h, soft_eq _ h]
  by_cases e : k / 32 = i
  · have joined := getLsbD_foldl_or_two_pow (fun b => bit v b && s.hasSource (32 * i + b)) (List.range 32) (0 : Word) k32
    have whole : 32 * i + k % 32 = k := by omega
    simp only [State.pendSet, e, reg_setReg_same, BitVec.getLsbD_or, joined, whole]
    simp [k32]
  · have other : Adr.IC_PEND_SET (k / 32) ≠ Adr.IC_PEND_SET i := by simp only [Adr.IC_PEND_SET]; omega
    simp [State.pendSet, reg_setReg_ne _ _ other, e]

/-- A claim clears the bit of the source that it returns. -/
theorem soft_claim {t n : Nat} {fast : Bool} (h : n < 256) (c : s.candidate t fast = some n) : (s.claim t fast).2.soft n = false := by
  have same : (s.claim t fast).2.reg (Adr.IC_PEND_SET (n / 32)) = putBits (s.reg (Adr.IC_PEND_SET (n / 32))) (n % 32) 1 0 := by
    simp only [State.claim, c]
    exact reg_setReg_same s _ _
  rw [soft_eq _ h, same, ← bit_eq_getLsbD, bit_putBits_zero]

/-- A source is pending for its software bit alone. -/
def State.softPending (n : Nat) : Bool := s.boot.done && s.hasSource n && !s.isActive n && s.soft n

theorem isPending_of_softPending {n : Nat} (h : s.softPending n = true) : s.isPending n = true := by
  simp only [State.softPending, Bool.and_eq_true] at h
  obtain ⟨able, soft⟩ := h
  simp [State.isPending, able, soft]

/-- The message of a line changes no pending bit that software has set. -/
theorem softPending_lineMsg (l : Nat) {n : Nat} (h : n < 256) : (s.lineMsg l).softPending n = s.softPending n := by
  unfold State.lineMsg
  split
  · refine sendVector_keeps (·.softPending n) (fun _ _ => rfl) (fun _ _ => rfl) (fun s v w lt => ?_) s (Nat.mod_lt _ (by decide))
    have other : Adr.IC_PEND_SET (n / 32) ≠ Adr.MSIX_PBA v := by simp only [Adr.IC_PEND_SET, Adr.MSIX_PBA]; omega
    have soft : (s.setReg (Adr.MSIX_PBA v) w).soft n = s.soft n := by rw [State.soft, z_setReg_ne _ _ other, State.soft]
    show (s.boot.done && s.hasSource n && !s.isActive n && _) = _
    rw [soft, State.softPending]
  · rfl

/-- The complete of the only active source presents the bit that software has set. -/
theorem softPending_complete {t n : Nat} {fast : Bool} (h : n < 256) (active : s.ic.active = [(n, t, fast)]) :
    (s.complete t fast n).softPending n = (s.boot.done && s.hasSource n && s.soft n) := by
  have ended : ({ s with ic := { s.ic with active := [] } } : State).softPending n = (s.boot.done && s.hasSource n && s.soft n) := by
    show (s.boot.done && s.hasSource n && !false && s.soft n) = _
    simp
  rw [← ended]
  simp only [State.complete, active]
  simp [apply_ite (State.softPending · n), softPending_lineMsg _ _ h]

/-! ### The accesses of the host -/

/-- A write that reaches a register of the low blocks has that register's effect, and latches nothing where the effect is taken or
silently discarded. -/
theorem write_low {f : Iface} {a : Nat} {v : Word} (low : a < 0x80000) (reaches : s.writable f a v)
    (quiet : (s.doLow f a v).1 = Code.done ∨ (s.doLow f a v).1 = Code.silent) : s.write f a v = (s.doLow f a v).2 := by
  obtain ⟨gate, good⟩ := reaches
  have taken : s.wr f false a v = s.doLow f a v := by simp [State.wr, gate, good, low]
  rw [State.write, taken, if_pos quiet]

theorem write_pendSet {f : Iface} {i : Nat} {v : Word} (h : i < 8) (reaches : s.writable f (Adr.IC_PEND_SET i) v) :
    s.write f (Adr.IC_PEND_SET i) v = s.pendSet i v := by
  have place : Adr.IC_PEND_SET i = 0x34480 + 4 * i := rfl
  have index : (Adr.IC_PEND_SET i - 0x30000 - 0x4480) / 4 = i := by omega
  have effect : s.doLow f (Adr.IC_PEND_SET i) v = (Code.done, s.pendSet i v) := by
    unfold State.doLow
    rw [if_neg (by simp only [Adr.FLT_STAT]; omega), if_neg (by simp only [Adr.FLT_INJ_CTL]; omega), if_pos (by omega)]
    dsimp only
    rw [if_neg (by omega), if_neg (by omega), if_pos (by omega), index]
  rw [write_low s (by omega) reaches (by rw [effect]; exact .inl rfl), effect]

theorem write_claim {f : Iface} {t : Nat} {fast : Bool} {v : Word} (h : t < 4) (reaches : s.writable f (Adr.IC_CLAIM (b2n fast) t) v) :
    s.write f (Adr.IC_CLAIM (b2n fast) t) v = s.complete t fast (bits v 0 8) := by
  obtain ⟨⟨target, cls⟩, within, -⟩ := claim_offset t h fast
  have effect : s.doLow f (Adr.IC_CLAIM (b2n fast) t) v = s.completeAt (Adr.IC_CLAIM (b2n fast) t) v := by
    unfold State.doLow
    rw [if_neg (by simp only [Adr.FLT_STAT]; omega), if_neg (by simp only [Adr.FLT_INJ_CTL]; omega), if_pos (by omega)]
    exact if_pos (by omega)
  have completes : (s.completeAt (Adr.IC_CLAIM (b2n fast) t) v).2 = s.complete t fast (bits v 0 8) := by
    have target' : (Adr.IC_CLAIM (b2n fast) t - 0x30000) / 0x1000 % 4 = t := by omega
    have cls' : decide (0x8000 ≤ Adr.IC_CLAIM (b2n fast) t - 0x30000) = fast :=
      (decide_eq_decide.mpr (by omega)).trans cls
    simp only [State.completeAt, target', cls']
  have quiet : (s.completeAt (Adr.IC_CLAIM (b2n fast) t) v).1 = Code.done ∨
      (s.completeAt (Adr.IC_CLAIM (b2n fast) t) v).1 = Code.silent := by
    dsimp only [State.completeAt]
    split
    · exact .inl rfl
    · exact .inr rfl
  rw [write_low s (by omega) reaches (by rw [effect]; exact quiet), effect, completes]

theorem readAns_claim {f : Iface} {t : Nat} {fast : Bool} (h : t < 4) (reaches : s.readable (Adr.IC_CLAIM (b2n fast) t)) :
    s.readAns f (Adr.IC_CLAIM (b2n fast) t) = (s.claim t fast).2.answer f [(s.claim t fast).1] := by
  obtain ⟨⟨target, cls⟩, within, lo, hi, window, time⟩ := claim_offset t h fast
  have effect : s.rdReg f (Adr.IC_CLAIM (b2n fast) t) false = s.claim t fast := by
    simp [State.rdReg, regAcc_claim t h fast, lo, hi, window, time, within, target, cls]
  have gate : s.gate false (Adr.IC_CLAIM (b2n fast) t) = Code.done := reaches
  simp [State.readAns, State.read, State.rd_, gate, effect]

end

/-! ### The commands -/

/-- A command whose index is within its range makes what its effect makes. -/
theorem makes_of_ix {c : Instr} {s : State} {ok : Bool} {f : State → State} {P : State → Prop}
    (e : exec c s = runs s fun s => s.ix ok f) (h : ok = true) (hp : P (f s)) : Makes c s P :=
  ⟨f s, by rw [e, runs, State.ix, if_pos h], hp⟩

theorem makes_icPendSet {s : State} {f : Iface} {i : Nat} {v : Word} {P : State → Prop} (h : i < 8)
    (reaches : s.writable f (Adr.IC_PEND_SET i) v) (hp : P (s.pendSet i v)) : Makes (.icPendSet i v f) s P :=
  makes_of_ix rfl (decide_eq_true h) (by rwa [write_pendSet s h reaches])

theorem makes_icComplete {s : State} {f : Iface} {t : Nat} {fast : Bool} {v : Word} {P : State → Prop} (h : t < 4)
    (reaches : s.writable f (Adr.IC_CLAIM (b2n fast) t) v) (hp : P (s.complete t fast (bits v 0 8))) :
    Makes (.icComplete t fast v f) s P :=
  makes_of_ix rfl (decide_eq_true h) (by rwa [write_claim s h reaches])

theorem makes_icClaim {s : State} {f : Iface} {t : Nat} {fast : Bool} {P : State → Prop} (h : t < 4)
    (reaches : s.readable (Adr.IC_CLAIM (b2n fast) t)) (hp : P ((s.claim t fast).2.answer f [(s.claim t fast).1])) :
    Makes (.icClaim t fast f) s P :=
  makes_of_ix rfl (decide_eq_true h) (by rwa [readAns_claim s h reaches])

/-- Settles O44: the bit lies in IC_PEND_SET, which a write adds to and a claim takes from; neither the end of an activity nor a
line's message touches it. -/
theorem softwarePending : Obligations.SoftwarePending := by
  unfold Obligations.SoftwarePending
  intro s f v n t fast boot hn ht
  refine ⟨fun reaches one src => ?_, fun soft src active => ⟨?_, fun reaches => ?_⟩, fun c reaches => ?_⟩
  · have held : (s.pendSet (n / 32) v).soft n = true := by simp [soft_pendSet s v hn, one, src]
    refine makes_icPendSet (by omega) reaches ⟨held, fun idle => ?_, fun k hk out => ?_⟩
    · apply isPending_of_softPending
      show (s.boot.done && s.hasSource n && !s.isActive n && _) = true
      simp [boot, src, idle, held]
    · rw [soft_pendSet s v hk]
      rcases out with absent | other
      · simp [absent]
      · simp [other]
  · simp [State.isPending, State.isActive, active]
  · have source : bits (BitVec.ofNat 32 n) 0 8 = n := by
      rw [bits, BitVec.toNat_ofNat]; omega
    refine makes_icComplete ht reaches ?_
    rw [source]
    apply isPending_of_softPending
    simp [softPending_complete s hn active, boot, src, soft]
  · exact makes_icClaim ht reaches (soft_claim s hn c)

end Sys2Proof.Machine
end
